-- ==== Sys2Proof/Word.lean ====
section
/-! DEFINITION. The two word types of the machine (spec R5): a byte `u8` and a 16-bit word or address `u16`. Bit 0 is the least significant bit. The helpers that take words apart and put them together stand in Decode.lean. -/

namespace Sys2Proof

/-- `u8` of R5: a data byte, a register, an instruction byte. -/
abbrev Byte := BitVec 8

/-- `u16` of R5: an address, and the program counter. -/
abbrev Addr := BitVec 16

end Sys2Proof
end

