-- ==== Sys2Proof/Syntax.lean ====
section
/-! DEFINITION. The syntax of the instruction set: one constructor of `Instr` per row of the opcode table (R65; 151 rows, 56 mnemonics), and the views of an instruction the rules speak of: its mnemonic (R72), its operand (R63) and its addressing mode (R62). -/

namespace Sys2Proof

/-- The 56 mnemonics of the Operations table (R72), spelled as the table spells them. -/
inductive Mnemonic where
  | LDA | LDX | LDY | STA | STX | STY
  | TAX | TAY | TSX | TXA | TXS | TYA | PHA | PHP | PLA | PLP
  | AND | EOR | ORA | BIT
  | ADC | SBC | CMP | CPX | CPY
  | DEC | DEX | DEY | INC | INX | INY
  | ASL | LSR | ROL | ROR
  | BCC | BCS | BEQ | BMI | BNE | BPL | BVC | BVS | JMP | JSR | RTS
  | CLC | CLD | CLI | CLV | SEC | SED | SEI
  | BRK | NOP | RTI
  deriving DecidableEq, Repr

/-- The 13 addressing modes by their ids in the source (R62). -/
inductive ModeId where
  | implied | accumulator | immediate
  | zeroPage | zeroPageX | zeroPageY
  | absolute | absoluteX | absoluteY | absoluteIndirect
  | indirectX | indirectY | relative
  deriving DecidableEq, Repr

/-- The eight modes that give a data operand in memory an effective address (R84 to R89, R91, R92),
each with the operand of R63. -/
inductive MemMode where
  /-- `zp` (R84). -/
  | zp (z : Byte)
  /-- `zp,X` (R85). -/
  | zpX (z : Byte)
  /-- `zp,Y` (R86). -/
  | zpY (z : Byte)
  /-- `addr` (R87). -/
  | abs (w : Addr)
  /-- `addr,X` (R88). -/
  | absX (w : Addr)
  /-- `addr,Y` (R89). -/
  | absY (w : Addr)
  /-- `(addr,X)` (R91). -/
  | indX (z : Byte)
  /-- `(addr),Y` (R92). -/
  | indY (z : Byte)
  deriving DecidableEq, Repr

/-- What an instruction's operand is (R80): nothing, the accumulator, an immediate byte, a byte in
memory, or what a control transfer takes. -/
inductive Operand where
  /-- R81. -/
  | implied
  /-- R82. -/
  | accumulator
  /-- R83. -/
  | immediate (v : Byte)
  /-- R84 to R89, R91, R92. -/
  | memory (m : MemMode)
  /-- The target of `JMP addr` and `JSR addr` (R87). -/
  | target (w : Addr)
  /-- The pointer of `JMP (addr)` (R90). -/
  | indirect (w : Addr)
  /-- The displacement of a branch (R93). -/
  | relative (d : Byte)
  deriving DecidableEq, Repr

/-- An operand that an instruction reads and does not write back: immediate or memory (R80). -/
inductive Src where
  | imm (v : Byte)
  | mem (m : MemMode)
  deriving DecidableEq, Repr

/-- An operand that an instruction reads and writes back: the accumulator or memory (R80). -/
inductive Rmw where
  | acc
  | mem (m : MemMode)
  deriving DecidableEq, Repr

/-- The instructions: one constructor per row of spec/opcode_table.json, named by its mnemonic and,
where the mnemonic has several rows, its mode. `v` is an immediate byte, `z` a zero-page address,
`w` a 16-bit address, `d` a branch displacement (R63). -/
inductive Instr where
  -- 41_load_store.md
  | ldaImm (v : Byte) | ldaZp (z : Byte) | ldaZpX (z : Byte) | ldaAbs (w : Addr)
  | ldaAbsX (w : Addr) | ldaAbsY (w : Addr) | ldaIndX (z : Byte) | ldaIndY (z : Byte)
  | ldxImm (v : Byte) | ldxZp (z : Byte) | ldxZpY (z : Byte) | ldxAbs (w : Addr)
  | ldxAbsY (w : Addr)
  | ldyImm (v : Byte) | ldyZp (z : Byte) | ldyZpX (z : Byte) | ldyAbs (w : Addr)
  | ldyAbsX (w : Addr)
  | staZp (z : Byte) | staZpX (z : Byte) | staAbs (w : Addr) | staAbsX (w : Addr)
  | staAbsY (w : Addr) | staIndX (z : Byte) | staIndY (z : Byte)
  | stxZp (z : Byte) | stxZpY (z : Byte) | stxAbs (w : Addr)
  | styZp (z : Byte) | styZpX (z : Byte) | styAbs (w : Addr)
  -- 42_transfer_stack.md
  | tax | tay | tsx | txa | txs | tya | pha | php | pla | plp
  -- 43_logical.md
  | andImm (v : Byte) | andZp (z : Byte) | andZpX (z : Byte) | andAbs (w : Addr)
  | andAbsX (w : Addr) | andAbsY (w : Addr) | andIndX (z : Byte) | andIndY (z : Byte)
  | eorImm (v : Byte) | eorZp (z : Byte) | eorZpX (z : Byte) | eorAbs (w : Addr)
  | eorAbsX (w : Addr) | eorAbsY (w : Addr) | eorIndX (z : Byte) | eorIndY (z : Byte)
  | oraImm (v : Byte) | oraZp (z : Byte) | oraZpX (z : Byte) | oraAbs (w : Addr)
  | oraAbsX (w : Addr) | oraAbsY (w : Addr) | oraIndX (z : Byte) | oraIndY (z : Byte)
  | bitZp (z : Byte) | bitAbs (w : Addr)
  -- 44_arithmetic.md
  | adcImm (v : Byte) | adcZp (z : Byte) | adcZpX (z : Byte) | adcAbs (w : Addr)
  | adcAbsX (w : Addr) | adcAbsY (w : Addr) | adcIndX (z : Byte) | adcIndY (z : Byte)
  | sbcImm (v : Byte) | sbcZp (z : Byte) | sbcZpX (z : Byte) | sbcAbs (w : Addr)
  | sbcAbsX (w : Addr) | sbcAbsY (w : Addr) | sbcIndX (z : Byte) | sbcIndY (z : Byte)
  | cmpImm (v : Byte) | cmpZp (z : Byte) | cmpZpX (z : Byte) | cmpAbs (w : Addr)
  | cmpAbsX (w : Addr) | cmpAbsY (w : Addr) | cmpIndX (z : Byte) | cmpIndY (z : Byte)
  | cpxImm (v : Byte) | cpxZp (z : Byte) | cpxAbs (w : Addr)
  | cpyImm (v : Byte) | cpyZp (z : Byte) | cpyAbs (w : Addr)
  -- 45_incdec.md
  | decZp (z : Byte) | decZpX (z : Byte) | decAbs (w : Addr) | decAbsX (w : Addr)
  | dex | dey
  | incZp (z : Byte) | incZpX (z : Byte) | incAbs (w : Addr) | incAbsX (w : Addr)
  | inx | iny
  -- 46_shift_rotate.md
  | aslAcc | aslZp (z : Byte) | aslZpX (z : Byte) | aslAbs (w : Addr) | aslAbsX (w : Addr)
  | lsrAcc | lsrZp (z : Byte) | lsrZpX (z : Byte) | lsrAbs (w : Addr) | lsrAbsX (w : Addr)
  | rolAcc | rolZp (z : Byte) | rolZpX (z : Byte) | rolAbs (w : Addr) | rolAbsX (w : Addr)
  | rorAcc | rorZp (z : Byte) | rorZpX (z : Byte) | rorAbs (w : Addr) | rorAbsX (w : Addr)
  -- 47_branch_jump.md
  | bcc (d : Byte) | bcs (d : Byte) | beq (d : Byte) | bmi (d : Byte)
  | bne (d : Byte) | bpl (d : Byte) | bvc (d : Byte) | bvs (d : Byte)
  | jmpAbs (w : Addr) | jmpInd (w : Addr)
  | jsr (w : Addr) | rts
  -- 48_flag.md
  | clc | cld | cli | clv | sec | sed | sei
  -- 49_system.md
  | brk | nop | rti
  deriving DecidableEq, Repr

/-- The mnemonic of an instruction: the table's `mnemonic` column. -/
def Instr.mnemonic : Instr → Mnemonic
  | .ldaImm _ | .ldaZp _ | .ldaZpX _ | .ldaAbs _ | .ldaAbsX _ | .ldaAbsY _ | .ldaIndX _
  | .ldaIndY _ => .LDA
  | .ldxImm _ | .ldxZp _ | .ldxZpY _ | .ldxAbs _ | .ldxAbsY _ => .LDX
  | .ldyImm _ | .ldyZp _ | .ldyZpX _ | .ldyAbs _ | .ldyAbsX _ => .LDY
  | .staZp _ | .staZpX _ | .staAbs _ | .staAbsX _ | .staAbsY _ | .staIndX _ | .staIndY _ => .STA
  | .stxZp _ | .stxZpY _ | .stxAbs _ => .STX
  | .styZp _ | .styZpX _ | .styAbs _ => .STY
  | .tax => .TAX
  | .tay => .TAY
  | .tsx => .TSX
  | .txa => .TXA
  | .txs => .TXS
  | .tya => .TYA
  | .pha => .PHA
  | .php => .PHP
  | .pla => .PLA
  | .plp => .PLP
  | .andImm _ | .andZp _ | .andZpX _ | .andAbs _ | .andAbsX _ | .andAbsY _ | .andIndX _
  | .andIndY _ => .AND
  | .eorImm _ | .eorZp _ | .eorZpX _ | .eorAbs _ | .eorAbsX _ | .eorAbsY _ | .eorIndX _
  | .eorIndY _ => .EOR
  | .oraImm _ | .oraZp _ | .oraZpX _ | .oraAbs _ | .oraAbsX _ | .oraAbsY _ | .oraIndX _
  | .oraIndY _ => .ORA
  | .bitZp _ | .bitAbs _ => .BIT
  | .adcImm _ | .adcZp _ | .adcZpX _ | .adcAbs _ | .adcAbsX _ | .adcAbsY _ | .adcIndX _
  | .adcIndY _ => .ADC
  | .sbcImm _ | .sbcZp _ | .sbcZpX _ | .sbcAbs _ | .sbcAbsX _ | .sbcAbsY _ | .sbcIndX _
  | .sbcIndY _ => .SBC
  | .cmpImm _ | .cmpZp _ | .cmpZpX _ | .cmpAbs _ | .cmpAbsX _ | .cmpAbsY _ | .cmpIndX _
  | .cmpIndY _ => .CMP
  | .cpxImm _ | .cpxZp _ | .cpxAbs _ => .CPX
  | .cpyImm _ | .cpyZp _ | .cpyAbs _ => .CPY
  | .decZp _ | .decZpX _ | .decAbs _ | .decAbsX _ => .DEC
  | .dex => .DEX
  | .dey => .DEY
  | .incZp _ | .incZpX _ | .incAbs _ | .incAbsX _ => .INC
  | .inx => .INX
  | .iny => .INY
  | .aslAcc | .aslZp _ | .aslZpX _ | .aslAbs _ | .aslAbsX _ => .ASL
  | .lsrAcc | .lsrZp _ | .lsrZpX _ | .lsrAbs _ | .lsrAbsX _ => .LSR
  | .rolAcc | .rolZp _ | .rolZpX _ | .rolAbs _ | .rolAbsX _ => .ROL
  | .rorAcc | .rorZp _ | .rorZpX _ | .rorAbs _ | .rorAbsX _ => .ROR
  | .bcc _ => .BCC
  | .bcs _ => .BCS
  | .beq _ => .BEQ
  | .bmi _ => .BMI
  | .bne _ => .BNE
  | .bpl _ => .BPL
  | .bvc _ => .BVC
  | .bvs _ => .BVS
  | .jmpAbs _ | .jmpInd _ => .JMP
  | .jsr _ => .JSR
  | .rts => .RTS
  | .clc => .CLC
  | .cld => .CLD
  | .cli => .CLI
  | .clv => .CLV
  | .sec => .SEC
  | .sed => .SED
  | .sei => .SEI
  | .brk => .BRK
  | .nop => .NOP
  | .rti => .RTI

/-- The operand of an instruction, by the table's `format` column (R62, R63). -/
def Instr.operand : Instr → Operand
  | .ldaImm v => .immediate v
  | .ldaZp z => .memory (.zp z)
  | .ldaZpX z => .memory (.zpX z)
  | .ldaAbs w => .memory (.abs w)
  | .ldaAbsX w => .memory (.absX w)
  | .ldaAbsY w => .memory (.absY w)
  | .ldaIndX z => .memory (.indX z)
  | .ldaIndY z => .memory (.indY z)
  | .ldxImm v => .immediate v
  | .ldxZp z => .memory (.zp z)
  | .ldxZpY z => .memory (.zpY z)
  | .ldxAbs w => .memory (.abs w)
  | .ldxAbsY w => .memory (.absY w)
  | .ldyImm v => .immediate v
  | .ldyZp z => .memory (.zp z)
  | .ldyZpX z => .memory (.zpX z)
  | .ldyAbs w => .memory (.abs w)
  | .ldyAbsX w => .memory (.absX w)
  | .staZp z => .memory (.zp z)
  | .staZpX z => .memory (.zpX z)
  | .staAbs w => .memory (.abs w)
  | .staAbsX w => .memory (.absX w)
  | .staAbsY w => .memory (.absY w)
  | .staIndX z => .memory (.indX z)
  | .staIndY z => .memory (.indY z)
  | .stxZp z => .memory (.zp z)
  | .stxZpY z => .memory (.zpY z)
  | .stxAbs w => .memory (.abs w)
  | .styZp z => .memory (.zp z)
  | .styZpX z => .memory (.zpX z)
  | .styAbs w => .memory (.abs w)
  | .tax => .implied
  | .tay => .implied
  | .tsx => .implied
  | .txa => .implied
  | .txs => .implied
  | .tya => .implied
  | .pha => .implied
  | .php => .implied
  | .pla => .implied
  | .plp => .implied
  | .andImm v => .immediate v
  | .andZp z => .memory (.zp z)
  | .andZpX z => .memory (.zpX z)
  | .andAbs w => .memory (.abs w)
  | .andAbsX w => .memory (.absX w)
  | .andAbsY w => .memory (.absY w)
  | .andIndX z => .memory (.indX z)
  | .andIndY z => .memory (.indY z)
  | .eorImm v => .immediate v
  | .eorZp z => .memory (.zp z)
  | .eorZpX z => .memory (.zpX z)
  | .eorAbs w => .memory (.abs w)
  | .eorAbsX w => .memory (.absX w)
  | .eorAbsY w => .memory (.absY w)
  | .eorIndX z => .memory (.indX z)
  | .eorIndY z => .memory (.indY z)
  | .oraImm v => .immediate v
  | .oraZp z => .memory (.zp z)
  | .oraZpX z => .memory (.zpX z)
  | .oraAbs w => .memory (.abs w)
  | .oraAbsX w => .memory (.absX w)
  | .oraAbsY w => .memory (.absY w)
  | .oraIndX z => .memory (.indX z)
  | .oraIndY z => .memory (.indY z)
  | .bitZp z => .memory (.zp z)
  | .bitAbs w => .memory (.abs w)
  | .adcImm v => .immediate v
  | .adcZp z => .memory (.zp z)
  | .adcZpX z => .memory (.zpX z)
  | .adcAbs w => .memory (.abs w)
  | .adcAbsX w => .memory (.absX w)
  | .adcAbsY w => .memory (.absY w)
  | .adcIndX z => .memory (.indX z)
  | .adcIndY z => .memory (.indY z)
  | .sbcImm v => .immediate v
  | .sbcZp z => .memory (.zp z)
  | .sbcZpX z => .memory (.zpX z)
  | .sbcAbs w => .memory (.abs w)
  | .sbcAbsX w => .memory (.absX w)
  | .sbcAbsY w => .memory (.absY w)
  | .sbcIndX z => .memory (.indX z)
  | .sbcIndY z => .memory (.indY z)
  | .cmpImm v => .immediate v
  | .cmpZp z => .memory (.zp z)
  | .cmpZpX z => .memory (.zpX z)
  | .cmpAbs w => .memory (.abs w)
  | .cmpAbsX w => .memory (.absX w)
  | .cmpAbsY w => .memory (.absY w)
  | .cmpIndX z => .memory (.indX z)
  | .cmpIndY z => .memory (.indY z)
  | .cpxImm v => .immediate v
  | .cpxZp z => .memory (.zp z)
  | .cpxAbs w => .memory (.abs w)
  | .cpyImm v => .immediate v
  | .cpyZp z => .memory (.zp z)
  | .cpyAbs w => .memory (.abs w)
  | .decZp z => .memory (.zp z)
  | .decZpX z => .memory (.zpX z)
  | .decAbs w => .memory (.abs w)
  | .decAbsX w => .memory (.absX w)
  | .dex => .implied
  | .dey => .implied
  | .incZp z => .memory (.zp z)
  | .incZpX z => .memory (.zpX z)
  | .incAbs w => .memory (.abs w)
  | .incAbsX w => .memory (.absX w)
  | .inx => .implied
  | .iny => .implied
  | .aslAcc => .accumulator
  | .aslZp z => .memory (.zp z)
  | .aslZpX z => .memory (.zpX z)
  | .aslAbs w => .memory (.abs w)
  | .aslAbsX w => .memory (.absX w)
  | .lsrAcc => .accumulator
  | .lsrZp z => .memory (.zp z)
  | .lsrZpX z => .memory (.zpX z)
  | .lsrAbs w => .memory (.abs w)
  | .lsrAbsX w => .memory (.absX w)
  | .rolAcc => .accumulator
  | .rolZp z => .memory (.zp z)
  | .rolZpX z => .memory (.zpX z)
  | .rolAbs w => .memory (.abs w)
  | .rolAbsX w => .memory (.absX w)
  | .rorAcc => .accumulator
  | .rorZp z => .memory (.zp z)
  | .rorZpX z => .memory (.zpX z)
  | .rorAbs w => .memory (.abs w)
  | .rorAbsX w => .memory (.absX w)
  | .bcc d => .relative d
  | .bcs d => .relative d
  | .beq d => .relative d
  | .bmi d => .relative d
  | .bne d => .relative d
  | .bpl d => .relative d
  | .bvc d => .relative d
  | .bvs d => .relative d
  | .jmpAbs w => .target w
  | .jmpInd w => .indirect w
  | .jsr w => .target w
  | .rts => .implied
  | .clc => .implied
  | .cld => .implied
  | .cli => .implied
  | .clv => .implied
  | .sec => .implied
  | .sed => .implied
  | .sei => .implied
  | .brk => .implied
  | .nop => .implied
  | .rti => .implied

/-- The mode id of a memory mode (R62). -/
def MemMode.modeId : MemMode → ModeId
  | .zp _ => .zeroPage
  | .zpX _ => .zeroPageX
  | .zpY _ => .zeroPageY
  | .abs _ => .absolute
  | .absX _ => .absoluteX
  | .absY _ => .absoluteY
  | .indX _ => .indirectX
  | .indY _ => .indirectY

/-- The mode id of an operand (R62). -/
def Operand.modeId : Operand → ModeId
  | .implied => .implied
  | .accumulator => .accumulator
  | .immediate _ => .immediate
  | .memory m => m.modeId
  | .target _ => .absolute
  | .indirect _ => .absoluteIndirect
  | .relative _ => .relative

/-- The operand as one that is only read, where it is one. -/
def Operand.src? : Operand → Option Src
  | .immediate v => some (.imm v)
  | .memory m => some (.mem m)
  | _ => none

/-- The operand as one that is read and written back, where it is one. -/
def Operand.rmw? : Operand → Option Rmw
  | .accumulator => some .acc
  | .memory m => some (.mem m)
  | _ => none

/-- The length of an instruction in bytes by its mode: the source's Bytes column (R60, R62). -/
def ModeId.bytes : ModeId → Nat
  | .implied | .accumulator => 1
  | .immediate | .zeroPage | .zeroPageX | .zeroPageY | .indirectX | .indirectY | .relative => 2
  | .absolute | .absoluteX | .absoluteY | .absoluteIndirect => 3

/-- The length of an instruction in bytes (R60). -/
def Instr.length (i : Instr) : Nat :=
  i.operand.modeId.bytes

end Sys2Proof
end

