-- ==== Sys2Proof/Decode.lean ====
section
/-! DEFINITION. From bytes to instructions and back: taking words apart and putting them together (R5, R63), the opcode map (R65), the decoder, total on any bytes and rejecting by name, the encoder written from the same table, and the host's `decodeTableWord`. -/

namespace Sys2Proof

/-- `lo(w)` of R5. -/
def lowByte (w : Addr) : Byte :=
  BitVec.ofNat 8 w.toNat

/-- `hi(w)` of R5. -/
def highByte (w : Addr) : Byte :=
  BitVec.ofNat 8 (w.toNat / 256)

/-- The concatenation `{h, l}` = `h * 256 + l` of R5: the high byte first, little-endian in memory
(R44). -/
def joinBytes (h l : Byte) : Addr :=
  BitVec.ofNat 16 (h.toNat * 256 + l.toNat)

/-- `zext_16` of R5. -/
def zeroExtend16 (b : Byte) : Addr :=
  BitVec.ofNat 16 b.toNat

/-- `sext_16` of R5: b, or b + 0xFF00 when b is 128 or more. -/
def signExtend16 (b : Byte) : Addr :=
  if b.toNat < 128 then BitVec.ofNat 16 b.toNat else BitVec.ofNat 16 (b.toNat + 0xFF00)

/-- What the decoder makes of the bytes after an opcode (R61, R63). -/
inductive RowFormat where
  /-- No operand byte. -/
  | none (i : Instr)
  /-- One operand byte, `b1`. -/
  | byte (f : Byte → Instr)
  /-- Two operand bytes: `b1` is the low byte, `b2` the high byte of `addr16`. -/
  | word (f : Addr → Instr)

/-- The length of an instruction of that format (R60). -/
def RowFormat.bytes : RowFormat → Nat
  | .none _ => 1
  | .byte _ => 2
  | .word _ => 3

/-- The rows of the opcode map (R65) of the instructions of 41_load_store.md. -/
def opcodesLoadStore : List (Nat × RowFormat) :=
  [(0xA9, .byte .ldaImm), (0xA5, .byte .ldaZp), (0xB5, .byte .ldaZpX), (0xAD, .word .ldaAbs),
   (0xBD, .word .ldaAbsX), (0xB9, .word .ldaAbsY), (0xA1, .byte .ldaIndX),
   (0xB1, .byte .ldaIndY), (0xA2, .byte .ldxImm), (0xA6, .byte .ldxZp), (0xB6, .byte .ldxZpY),
   (0xAE, .word .ldxAbs), (0xBE, .word .ldxAbsY), (0xA0, .byte .ldyImm), (0xA4, .byte .ldyZp),
   (0xB4, .byte .ldyZpX), (0xAC, .word .ldyAbs), (0xBC, .word .ldyAbsX), (0x85, .byte .staZp),
   (0x95, .byte .staZpX), (0x8D, .word .staAbs), (0x9D, .word .staAbsX), (0x99, .word .staAbsY),
   (0x81, .byte .staIndX), (0x91, .byte .staIndY), (0x86, .byte .stxZp), (0x96, .byte .stxZpY),
   (0x8E, .word .stxAbs), (0x84, .byte .styZp), (0x94, .byte .styZpX), (0x8C, .word .styAbs)]

/-- The rows of the opcode map (R65) of the instructions of 42_transfer_stack.md. -/
def opcodesTransferStack : List (Nat × RowFormat) :=
  [(0xAA, .none .tax), (0xA8, .none .tay), (0xBA, .none .tsx), (0x8A, .none .txa),
   (0x9A, .none .txs), (0x98, .none .tya), (0x48, .none .pha), (0x08, .none .php),
   (0x68, .none .pla), (0x28, .none .plp)]

/-- The rows of the opcode map (R65) of the instructions of 43_logical.md. -/
def opcodesLogical : List (Nat × RowFormat) :=
  [(0x29, .byte .andImm), (0x25, .byte .andZp), (0x35, .byte .andZpX), (0x2D, .word .andAbs),
   (0x3D, .word .andAbsX), (0x39, .word .andAbsY), (0x21, .byte .andIndX),
   (0x31, .byte .andIndY), (0x49, .byte .eorImm), (0x45, .byte .eorZp), (0x55, .byte .eorZpX),
   (0x4D, .word .eorAbs), (0x5D, .word .eorAbsX), (0x59, .word .eorAbsY), (0x41, .byte .eorIndX),
   (0x51, .byte .eorIndY), (0x09, .byte .oraImm), (0x05, .byte .oraZp), (0x15, .byte .oraZpX),
   (0x0D, .word .oraAbs), (0x1D, .word .oraAbsX), (0x19, .word .oraAbsY), (0x01, .byte .oraIndX),
   (0x11, .byte .oraIndY), (0x24, .byte .bitZp), (0x2C, .word .bitAbs)]

/-- The rows of the opcode map (R65) of the instructions of 44_arithmetic.md. -/
def opcodesArithmetic : List (Nat × RowFormat) :=
  [(0x69, .byte .adcImm), (0x65, .byte .adcZp), (0x75, .byte .adcZpX), (0x6D, .word .adcAbs),
   (0x7D, .word .adcAbsX), (0x79, .word .adcAbsY), (0x61, .byte .adcIndX),
   (0x71, .byte .adcIndY), (0xE9, .byte .sbcImm), (0xE5, .byte .sbcZp), (0xF5, .byte .sbcZpX),
   (0xED, .word .sbcAbs), (0xFD, .word .sbcAbsX), (0xF9, .word .sbcAbsY), (0xE1, .byte .sbcIndX),
   (0xF1, .byte .sbcIndY), (0xC9, .byte .cmpImm), (0xC5, .byte .cmpZp), (0xD5, .byte .cmpZpX),
   (0xCD, .word .cmpAbs), (0xDD, .word .cmpAbsX), (0xD9, .word .cmpAbsY), (0xC1, .byte .cmpIndX),
   (0xD1, .byte .cmpIndY), (0xE0, .byte .cpxImm), (0xE4, .byte .cpxZp), (0xEC, .word .cpxAbs),
   (0xC0, .byte .cpyImm), (0xC4, .byte .cpyZp), (0xCC, .word .cpyAbs)]

/-- The rows of the opcode map (R65) of the instructions of 45_incdec.md. -/
def opcodesIncDec : List (Nat × RowFormat) :=
  [(0xC6, .byte .decZp), (0xD6, .byte .decZpX), (0xCE, .word .decAbs), (0xDE, .word .decAbsX),
   (0xCA, .none .dex), (0x88, .none .dey), (0xE6, .byte .incZp), (0xF6, .byte .incZpX),
   (0xEE, .word .incAbs), (0xFE, .word .incAbsX), (0xE8, .none .inx), (0xC8, .none .iny)]

/-- The rows of the opcode map (R65) of the instructions of 46_shift_rotate.md. -/
def opcodesShiftRotate : List (Nat × RowFormat) :=
  [(0x0A, .none .aslAcc), (0x06, .byte .aslZp), (0x16, .byte .aslZpX), (0x0E, .word .aslAbs),
   (0x1E, .word .aslAbsX), (0x4A, .none .lsrAcc), (0x46, .byte .lsrZp), (0x56, .byte .lsrZpX),
   (0x4E, .word .lsrAbs), (0x5E, .word .lsrAbsX), (0x2A, .none .rolAcc), (0x26, .byte .rolZp),
   (0x36, .byte .rolZpX), (0x2E, .word .rolAbs), (0x3E, .word .rolAbsX), (0x6A, .none .rorAcc),
   (0x66, .byte .rorZp), (0x76, .byte .rorZpX), (0x6E, .word .rorAbs), (0x7E, .word .rorAbsX)]

/-- The rows of the opcode map (R65) of the instructions of 47_branch_jump.md. -/
def opcodesBranchJump : List (Nat × RowFormat) :=
  [(0x90, .byte .bcc), (0xB0, .byte .bcs), (0xF0, .byte .beq), (0x30, .byte .bmi),
   (0xD0, .byte .bne), (0x10, .byte .bpl), (0x50, .byte .bvc), (0x70, .byte .bvs),
   (0x4C, .word .jmpAbs), (0x6C, .word .jmpInd), (0x20, .word .jsr), (0x60, .none .rts)]

/-- The rows of the opcode map (R65) of the instructions of 48_flag.md. -/
def opcodesFlagOps : List (Nat × RowFormat) :=
  [(0x18, .none .clc), (0xD8, .none .cld), (0x58, .none .cli), (0xB8, .none .clv),
   (0x38, .none .sec), (0xF8, .none .sed), (0x78, .none .sei)]

/-- The rows of the opcode map (R65) of the instructions of 49_system.md. -/
def opcodesSystem : List (Nat × RowFormat) :=
  [(0x00, .none .brk), (0xEA, .none .nop), (0x40, .none .rti)]

/-- The whole opcode map (R65): 151 rows. -/
def opcodeRows : List (Nat × RowFormat) :=
  opcodesLoadStore ++ opcodesTransferStack ++ opcodesLogical ++ opcodesArithmetic ++ opcodesIncDec ++
    opcodesShiftRotate ++ opcodesBranchJump ++ opcodesFlagOps ++ opcodesSystem

/-- The row of an opcode in a list of rows (R64). -/
def findRow (op : Nat) : List (Nat × RowFormat) → Option RowFormat
  | [] => none
  | (k, f) :: rest => if op = k then some f else findRow op rest

/-- The length of the instruction an opcode byte begins, where one is assigned (R68). -/
def opcodeLength (op : Byte) : Option Nat :=
  (findRow op.toNat opcodeRows).map RowFormat.bytes

/-- Why the decoder rejects bytes. -/
inductive DecodeError where
  /-- There is no byte to decode. Raised by `decode` on the empty list. Safe. -/
  | noBytes
  /-- The opcode is one of the 105 bytes the source's grid marks `-` (R66). Safe. -/
  | unassigned (op : Byte)
  /-- The list ends before the operand bytes of this opcode. Safe: `fetch` gives all of them. -/
  | truncated (op : Byte)
  deriving DecidableEq, Repr

/-- Decodes the first instruction of a list of bytes and answers it with the bytes after it
(R60, R61, R63, R68). -/
def decode : List Byte → Except DecodeError (Instr × List Byte)
  | [] => .error .noBytes
  | op :: rest =>
    match findRow op.toNat opcodeRows, rest with
    | none, _ => .error (.unassigned op)
    | some (.none i), rest => .ok (i, rest)
    | some (.byte f), b1 :: rest => .ok (f b1, rest)
    | some (.word f), b1 :: b2 :: rest => .ok (f (joinBytes b2 b1), rest)
    | some _, _ => .error (.truncated op)

/-- The opcode byte of an instruction: the `match` column of the table, the cells of R65. -/
def Instr.opcode : Instr → Byte
  | .ldaImm _ => 0xA9#8
  | .ldaZp _ => 0xA5#8
  | .ldaZpX _ => 0xB5#8
  | .ldaAbs _ => 0xAD#8
  | .ldaAbsX _ => 0xBD#8
  | .ldaAbsY _ => 0xB9#8
  | .ldaIndX _ => 0xA1#8
  | .ldaIndY _ => 0xB1#8
  | .ldxImm _ => 0xA2#8
  | .ldxZp _ => 0xA6#8
  | .ldxZpY _ => 0xB6#8
  | .ldxAbs _ => 0xAE#8
  | .ldxAbsY _ => 0xBE#8
  | .ldyImm _ => 0xA0#8
  | .ldyZp _ => 0xA4#8
  | .ldyZpX _ => 0xB4#8
  | .ldyAbs _ => 0xAC#8
  | .ldyAbsX _ => 0xBC#8
  | .staZp _ => 0x85#8
  | .staZpX _ => 0x95#8
  | .staAbs _ => 0x8D#8
  | .staAbsX _ => 0x9D#8
  | .staAbsY _ => 0x99#8
  | .staIndX _ => 0x81#8
  | .staIndY _ => 0x91#8
  | .stxZp _ => 0x86#8
  | .stxZpY _ => 0x96#8
  | .stxAbs _ => 0x8E#8
  | .styZp _ => 0x84#8
  | .styZpX _ => 0x94#8
  | .styAbs _ => 0x8C#8
  | .tax => 0xAA#8
  | .tay => 0xA8#8
  | .tsx => 0xBA#8
  | .txa => 0x8A#8
  | .txs => 0x9A#8
  | .tya => 0x98#8
  | .pha => 0x48#8
  | .php => 0x08#8
  | .pla => 0x68#8
  | .plp => 0x28#8
  | .andImm _ => 0x29#8
  | .andZp _ => 0x25#8
  | .andZpX _ => 0x35#8
  | .andAbs _ => 0x2D#8
  | .andAbsX _ => 0x3D#8
  | .andAbsY _ => 0x39#8
  | .andIndX _ => 0x21#8
  | .andIndY _ => 0x31#8
  | .eorImm _ => 0x49#8
  | .eorZp _ => 0x45#8
  | .eorZpX _ => 0x55#8
  | .eorAbs _ => 0x4D#8
  | .eorAbsX _ => 0x5D#8
  | .eorAbsY _ => 0x59#8
  | .eorIndX _ => 0x41#8
  | .eorIndY _ => 0x51#8
  | .oraImm _ => 0x09#8
  | .oraZp _ => 0x05#8
  | .oraZpX _ => 0x15#8
  | .oraAbs _ => 0x0D#8
  | .oraAbsX _ => 0x1D#8
  | .oraAbsY _ => 0x19#8
  | .oraIndX _ => 0x01#8
  | .oraIndY _ => 0x11#8
  | .bitZp _ => 0x24#8
  | .bitAbs _ => 0x2C#8
  | .adcImm _ => 0x69#8
  | .adcZp _ => 0x65#8
  | .adcZpX _ => 0x75#8
  | .adcAbs _ => 0x6D#8
  | .adcAbsX _ => 0x7D#8
  | .adcAbsY _ => 0x79#8
  | .adcIndX _ => 0x61#8
  | .adcIndY _ => 0x71#8
  | .sbcImm _ => 0xE9#8
  | .sbcZp _ => 0xE5#8
  | .sbcZpX _ => 0xF5#8
  | .sbcAbs _ => 0xED#8
  | .sbcAbsX _ => 0xFD#8
  | .sbcAbsY _ => 0xF9#8
  | .sbcIndX _ => 0xE1#8
  | .sbcIndY _ => 0xF1#8
  | .cmpImm _ => 0xC9#8
  | .cmpZp _ => 0xC5#8
  | .cmpZpX _ => 0xD5#8
  | .cmpAbs _ => 0xCD#8
  | .cmpAbsX _ => 0xDD#8
  | .cmpAbsY _ => 0xD9#8
  | .cmpIndX _ => 0xC1#8
  | .cmpIndY _ => 0xD1#8
  | .cpxImm _ => 0xE0#8
  | .cpxZp _ => 0xE4#8
  | .cpxAbs _ => 0xEC#8
  | .cpyImm _ => 0xC0#8
  | .cpyZp _ => 0xC4#8
  | .cpyAbs _ => 0xCC#8
  | .decZp _ => 0xC6#8
  | .decZpX _ => 0xD6#8
  | .decAbs _ => 0xCE#8
  | .decAbsX _ => 0xDE#8
  | .dex => 0xCA#8
  | .dey => 0x88#8
  | .incZp _ => 0xE6#8
  | .incZpX _ => 0xF6#8
  | .incAbs _ => 0xEE#8
  | .incAbsX _ => 0xFE#8
  | .inx => 0xE8#8
  | .iny => 0xC8#8
  | .aslAcc => 0x0A#8
  | .aslZp _ => 0x06#8
  | .aslZpX _ => 0x16#8
  | .aslAbs _ => 0x0E#8
  | .aslAbsX _ => 0x1E#8
  | .lsrAcc => 0x4A#8
  | .lsrZp _ => 0x46#8
  | .lsrZpX _ => 0x56#8
  | .lsrAbs _ => 0x4E#8
  | .lsrAbsX _ => 0x5E#8
  | .rolAcc => 0x2A#8
  | .rolZp _ => 0x26#8
  | .rolZpX _ => 0x36#8
  | .rolAbs _ => 0x2E#8
  | .rolAbsX _ => 0x3E#8
  | .rorAcc => 0x6A#8
  | .rorZp _ => 0x66#8
  | .rorZpX _ => 0x76#8
  | .rorAbs _ => 0x6E#8
  | .rorAbsX _ => 0x7E#8
  | .bcc _ => 0x90#8
  | .bcs _ => 0xB0#8
  | .beq _ => 0xF0#8
  | .bmi _ => 0x30#8
  | .bne _ => 0xD0#8
  | .bpl _ => 0x10#8
  | .bvc _ => 0x50#8
  | .bvs _ => 0x70#8
  | .jmpAbs _ => 0x4C#8
  | .jmpInd _ => 0x6C#8
  | .jsr _ => 0x20#8
  | .rts => 0x60#8
  | .clc => 0x18#8
  | .cld => 0xD8#8
  | .cli => 0x58#8
  | .clv => 0xB8#8
  | .sec => 0x38#8
  | .sed => 0xF8#8
  | .sei => 0x78#8
  | .brk => 0x00#8
  | .nop => 0xEA#8
  | .rti => 0x40#8

/-- The bytes of a memory mode's operand (R61, R63). -/
def MemMode.operandBytes : MemMode → List Byte
  | .zp z | .zpX z | .zpY z | .indX z | .indY z => [z]
  | .abs w | .absX w | .absY w => [lowByte w, highByte w]

/-- The operand bytes of an instruction (R61, R63): a 16-bit address has its low byte first. -/
def Operand.operandBytes : Operand → List Byte
  | .implied | .accumulator => []
  | .immediate v => [v]
  | .memory m => m.operandBytes
  | .target w | .indirect w => [lowByte w, highByte w]
  | .relative d => [d]

/-- The bytes of an instruction in ascending address order (R61). -/
def encode (i : Instr) : List Byte :=
  i.opcode :: i.operand.operandBytes

/-- The three bytes of an instruction whose bits are `w`, numbered from the least significant bit
of the first byte on; bits from `nbits` up are 0. -/
def tableBytes (nbits w : Nat) : List Byte :=
  let v := w % 2 ^ nbits
  [BitVec.ofNat 8 v, BitVec.ofNat 8 (v / 256), BitVec.ofNat 8 (v / 65536)]

/-- The instruction the decoder reads from bits numbered as spec/opcode_table.json numbers them. -/
def decodeTableWord (nbits w : Nat) : Option Instr :=
  match decode (tableBytes nbits w) with
  | .ok (i, _) => some i
  | .error _ => none

end Sys2Proof
end

