-- ==== Sys2Proof/Config.lean ====
section
/-! DEFINITION. What is fixed for a machine and what the spec leaves open (R4): the parameters a model takes as arguments, their defaults, the three vector addresses, and the free values, which are opaque constants nobody can evaluate. -/

namespace Sys2Proof.Config

/-- What an address of the platform's map is (R48, D21). -/
inductive RegionKind where
  /-- Reads return the last value written, or the initial value. -/
  | ram
  /-- Reads return a fixed value; writes change no memory. -/
  | rom
  /-- A read returns a value chosen by the device oracle and may change device state; a write is
  recorded and may change device state. -/
  | device
  /-- A read returns an unspecified value, a draw; a write changes no memory. -/
  | unmapped
  deriving DecidableEq, Repr

/-- One entry of the platform's map: `size` addresses from `base` on. -/
structure Region where
  base : Nat
  size : Nat
  kind : RegionKind
  deriving DecidableEq, Repr

/-- `DecimalPolicy` of R4 and D13: what ADC and SBC do when P.D = 1. -/
inductive DecimalPolicy where
  /-- The digit correction of R133 and R134: the default. -/
  | nmosAlgorithm
  /-- R131, R132: `raise Refused(decimal)`. -/
  | refuse
  deriving DecidableEq, Repr

/-- `IFlagLatency` of R4, D18 and R211: which value of I masks an IRQ. -/
inductive IFlagLatency where
  /-- Either reading may occur: the default. -/
  | bothAdmitted
  /-- `I_eff = i_poll`: the chip. -/
  | oneInstruction
  /-- `I_eff = P.I`. -/
  | none
  deriving DecidableEq, Repr

/-- The open parameters of R4 that a step consults. No step changes them. -/
structure Params where
  /-- The platform's map; the first region that holds an address decides, and an address in no
  region is ram (the default platform is flat ram, R4). -/
  regions : List Region
  decimalPolicy : DecimalPolicy
  iFlagLatency : IFlagLatency
  deriving DecidableEq, Repr

/-- The defaults of R4: flat 64 KiB ram, the NMOS decimal algorithm, both I-flag readings. -/
def defaultParams : Params :=
  { regions := [], decimalPolicy := .nmosAlgorithm, iFlagLatency := .bothAdmitted }

/-- NMIB: low byte of the vector of the non-maskable interrupt (R43). -/
def nmiVector : Addr := 0xFFFA#16

/-- RESB: low byte of the reset vector (R43). -/
def resetVector : Addr := 0xFFFC#16

/-- IRQB: low byte of the vector of IRQ and BRK (R43). -/
def irqVector : Addr := 0xFFFE#16

/-- What a byte of memory that is not listed reads as.
DESIGN CHOICE, unsafe: RAM at power-on is unspecified (R39). Log 2. -/
def unlistedByte : Byte := 0x00#8

/-- FREE VALUE: the byte that a read of an unmapped address gives (R48, U5). Log 3, log 5. -/
opaque busByte (draw address : Nat) : Byte

/-- FREE VALUE: the byte that the devices answer a read with, in the state they are in: the device
oracle of R48 (U5). Log 3, log 5. -/
opaque deviceByte (device draw address : Nat) : Byte

/-- FREE VALUE: the state a read leaves the devices in (R48: a read may change device state). Log 3. -/
opaque deviceAfterRead (device draw address : Nat) : Nat

/-- FREE VALUE: the state a write leaves the devices in (R48: a write may change device state; U6: a
write to rom or an unmapped address is an event they may observe). Log 3. -/
opaque deviceAfterWrite (device draw address : Nat) (value : Byte) : Nat

/-- FREE VALUE: the state that a reset inside an instruction leaves the devices in, since which of the
instruction's accesses were made is open (R205, U8). Log 9. -/
opaque deviceAfterCut (device draw : Nat) : Nat

/-- FREE VALUE: whether a write of an instruction that a reset cuts short has happened (R205). Log 9. -/
opaque cutWriteHappens (draw : Nat) : Bool

/-- FREE VALUE: what such a write stores (U8: any value). Log 9. -/
opaque cutWriteByte (draw : Nat) : Byte

/-- FREE VALUE: `ResetDraw` of R4 (R39, R230, D20): the bytes that a reset step leaves in the
registers and flags the spec does not specify. Log 4, log 5. -/
opaque resetByte (draw : Nat) : Byte

/-- FREE VALUE: whether an IRQ is taken where `IFlagLatency = both_admitted` lets it be taken or not
(R211). Log 5. -/
opaque irqTaken (draw : Nat) : Bool

end Sys2Proof.Config
end

