-- ==== Sys2Proof/Machine/State.lean ====
section
/-! DEFINITION. The state of the machine as plain data (R20), the faults and refusals a step can end in (R10), and the state after reset (R39). -/

namespace Sys2Proof.Machine

/-- The six stored bits of P (R26). The B bit and bit 5 are not stored (R31, R32). -/
structure Flags where
  /-- P.N, negative, bit 7 (R34). -/
  n : Bool
  /-- P.V, overflow, bit 6 (R33). -/
  v : Bool
  /-- P.D, decimal mode, bit 3 (R30). -/
  d : Bool
  /-- P.I, interrupt disable, bit 2 (R29). -/
  i : Bool
  /-- P.Z, zero, bit 1 (R28). -/
  z : Bool
  /-- P.C, carry, bit 0 (R27). -/
  c : Bool
  deriving DecidableEq, Repr

/-- What the line RESB does at an instruction boundary and in the step that begins there (R205). -/
inductive ResbInput where
  /-- It is high at the boundary and until the step is done. -/
  | high
  /-- It is asserted (low) at the boundary. -/
  | low
  /-- It is high at the boundary and is asserted while the instruction or the interrupt entry that
  begins there is in progress (U8). -/
  | fallsInside
  deriving DecidableEq, Repr

/-- What the environment's three lines do at one instruction boundary (R220). All three are
active low. -/
structure LineInputs where
  /-- RESB (R205). -/
  resb : ResbInput
  /-- IRQB is low at this boundary. -/
  irqbLow : Bool
  /-- The levels NMIB took since the boundary before this one, oldest first; `true` is low. -/
  nmibLevels : List Bool
  deriving DecidableEq, Repr

/-- The state. Field by field it is the list under '## State' of INVENTORY.md. -/
structure State where
  /-- A, the accumulator (R21). -/
  a : Byte
  /-- X, an index register (R22). -/
  x : Byte
  /-- Y, an index register (R23). -/
  y : Byte
  /-- S, the stack pointer: the low byte of the next free stack location (R24). -/
  sp : Byte
  /-- pc, the program counter (R25). -/
  pc : Addr
  /-- P, the processor status (R26). -/
  p : Flags
  /-- The 65536 bytes of memory (R37). -/
  mem : Memory
  /-- `nmi_pending`: an edge on NMIB waits to be taken (R38, R204). -/
  nmiPending : Bool
  /-- `i_poll`: the interrupt mask as the acceptance test may see it (R38, R211). -/
  iPoll : Bool
  /-- The parameters of R4; no step changes them. -/
  cfg : Config.Params
  /-- The lines at the coming boundaries, the next one first; after its end no line is asserted and
  NMIB makes no transition (R4, R220). -/
  schedule : List LineInputs
  /-- The model's own: NMIB was low when the last schedule entry ended (R204). -/
  nmibLow : Bool
  /-- The model's own: the number of the next free value. -/
  draws : Nat
  /-- The state of the platform's devices (R48), as a number that only the free values of Config
  read and change. -/
  device : Nat
  /-- The model's own record of the writes outside ram, newest first (R48, U6). -/
  events : List Host.Cell
  /-- The model's own: a JSR has run whose bytes its own pushes address (R170, U9). -/
  jsrOverlap : Bool
  deriving DecidableEq, Repr

/-- Why a step stops with a fault. -/
inductive Fault where
  /-- `raise IllegalOpcode(op, addr)` (R10, R66): the byte `op` fetched as an opcode at `addr` is one
  of the 105 unassigned bytes. Raised by the fetch of a step. Safe: the chip goes on in some way
  the spec does not give. -/
  | illegalOpcode (op : Byte) (addr : Addr)
  deriving DecidableEq, Repr

/-- Why a step is refused. -/
inductive Refusal where
  /-- An instruction without a meaning; no arm of `exec` answers it. Safe. -/
  | notModelled (mnemonic : String)
  /-- `raise Refused(decimal)` (R10, R131, R132): ADC or SBC with P.D = 1 under
  `DecimalPolicy = refuse`, which is not the default. Raised by the meanings of ADC and SBC.
  Safe. -/
  | decimal
  deriving DecidableEq, Repr

/-- What a step or a meaning answers. -/
abbrev Result := Host.Outcome State Fault Refusal

/-- The machine right after reset (R39, R230), on the default platform with nothing in memory: I = 1,
`i_poll` = 1, `nmi_pending` = 0, pc from the reset vector. The values of A, X, Y, S and of N, V, D,
Z, C, which R39 leaves unspecified, are DESIGN CHOICES (unsafe, log 1). -/
def State.reset : State :=
  { a := 0x00#8
    x := 0x00#8
    y := 0x00#8
    sp := 0xFD#8
    pc := joinBytes (Memory.read [] (Config.resetVector + 1#16).toNat)
      (Memory.read [] Config.resetVector.toNat)
    p := { n := false, v := false, d := false, i := true, z := false, c := false }
    mem := []
    nmiPending := false
    iPoll := true
    cfg := Config.defaultParams
    schedule := []
    nmibLow := false
    draws := 0
    device := 0
    events := []
    jsrOverlap := false }

end Sys2Proof.Machine
end

