-- ==== Sys2Proof/Machine/Flags.lean ====
section
/-! DEFINITION. The processor status as a byte (R9, R26) and every flag computation of the spec: N and Z of a result (R9), the binary adder (R130), decimal addition and subtraction (R133, R134), compares (R138), and the shifts with the bit they move into C (R150 to R154). -/

namespace Sys2Proof.Machine

/-- One bit as a number. -/
def bit (b : Bool) : Nat :=
  if b then 1 else 0

/-- `PackP(b)` of R9: the byte pushed for P, bit 5 set, bit 4 the B bit to present. -/
def packP (b : Bool) (p : Flags) : Byte :=
  BitVec.ofNat 8 (bit p.n * 128 + bit p.v * 64 + 32 + bit b * 16 + bit p.d * 8 + bit p.i * 4 +
    bit p.z * 2 + bit p.c)

/-- `UnpackP(v)` of R9: the flags of a pulled byte; bits 5 and 4 are discarded. -/
def unpackP (v : Byte) : Flags :=
  { n := v.getLsbD 7, v := v.getLsbD 6, d := v.getLsbD 3, i := v.getLsbD 2, z := v.getLsbD 1,
    c := v.getLsbD 0 }

/-- `SetNZ(v)` of R9. -/
def Flags.withNZ (p : Flags) (v : Byte) : Flags :=
  { p with n := v.getLsbD 7, z := decide (v = 0x00#8) }

/-- What an addition or subtraction gives: the byte for A and the four flags it writes. -/
structure AluResult where
  value : Byte
  n : Bool
  v : Bool
  z : Bool
  c : Bool
  deriving DecidableEq, Repr

/-- The four flags of an addition or subtraction written into P; D and I stay (R131, R132). -/
def Flags.withAlu (p : Flags) (r : AluResult) : Flags :=
  { p with n := r.n, v := r.v, z := r.z, c := r.c }

/-- `AddBinary(a, m, c)` of R130, with N and Z of the result byte (R131). -/
def addBinary (a m : Byte) (c : Bool) : AluResult :=
  let sum := a.toNat + m.toNat + bit c
  let r := BitVec.ofNat 8 sum
  { value := r
    n := r.getLsbD 7
    v := decide ((a ^^^ r) &&& (m ^^^ r) &&& 0x80#8 ≠ 0x00#8)
    z := decide (r = 0x00#8)
    c := decide (sum > 255) }

/-- The binary subtraction of R132: `AddBinary(A, M ^ 0xFF, C)`. -/
def subBinary (a m : Byte) (c : Bool) : AluResult :=
  addBinary a (m ^^^ 0xFF#8) c

/-- `AdcDecimal(M)` of R133. `x % 16` is `x & 0x0F` and `x / 16 * 16` is `x & 0xF0` of a byte. -/
def adcDecimal (a m : Byte) (c : Bool) : AluResult :=
  let al := a.toNat % 16 + m.toNat % 16 + bit c
  let al' := if al ≥ 0x0A then (al + 0x06) % 16 + 0x10 else al
  let s := a.toNat / 16 * 16 + m.toNat / 16 * 16 + al'
  let s' := if s ≥ 0xA0 then s + 0x60 else s
  { value := BitVec.ofNat 8 s'
    n := s.testBit 7
    v := decide ((a.toNat ^^^ s) &&& (m.toNat ^^^ s) &&& 0x80 ≠ 0)
    z := decide ((a.toNat + m.toNat + bit c) % 256 = 0)
    c := decide (s' ≥ 0x100) }

/-- `SbcDecimal(M, r, c', v')` of R134: the flags are those of the binary subtraction; only the byte
for A differs. `% 16` of an integer is the non-negative remainder. -/
def sbcDecimal (a m : Byte) (c : Bool) : AluResult :=
  let al : Int := (a.toNat % 16 : Nat) - (m.toNat % 16 : Nat) + (bit c : Nat) - 1
  let al' : Int := if al < 0 then (al - 0x06) % 16 - 0x10 else al
  let s : Int := (a.toNat / 16 * 16 : Nat) - (m.toNat / 16 * 16 : Nat) + al'
  let s' : Int := if s < 0 then s - 0x60 else s
  { subBinary a m c with value := BitVec.ofInt 8 s' }

/-- `Compare(reg, M)` of R138: N, Z and C of the difference, everything else kept. -/
def Flags.withCompare (p : Flags) (reg m : Byte) : Flags :=
  { p with
    c := decide (reg.toNat ≥ m.toNat)
    z := decide (reg = m)
    n := (reg - m).getLsbD 7 }

/-- What a shift or rotate gives: the result byte and the bit shifted out (R150). -/
structure ShiftResult where
  value : Byte
  out : Bool
  deriving DecidableEq, Repr

/-- ASL (R151): bit 7 out, 0 in at bit 0. -/
def shiftAsl (v : Byte) (_c : Bool) : ShiftResult :=
  { value := BitVec.ofNat 8 (v.toNat * 2), out := v.getLsbD 7 }

/-- LSR (R152): bit 0 out, 0 in at bit 7. -/
def shiftLsr (v : Byte) (_c : Bool) : ShiftResult :=
  { value := BitVec.ofNat 8 (v.toNat / 2), out := v.getLsbD 0 }

/-- ROL (R153): bit 7 out, the old carry in at bit 0. -/
def shiftRol (v : Byte) (c : Bool) : ShiftResult :=
  { value := BitVec.ofNat 8 (v.toNat * 2 + bit c), out := v.getLsbD 7 }

/-- ROR (R154): bit 0 out, the old carry in at bit 7. -/
def shiftRor (v : Byte) (c : Bool) : ShiftResult :=
  { value := BitVec.ofNat 8 (v.toNat / 2 + bit c * 128), out := v.getLsbD 0 }

/-- The flags after a shift: C the bit shifted out, N and Z of the result (R150). -/
def Flags.withShift (p : Flags) (r : ShiftResult) : Flags :=
  { p with c := r.out, n := r.value.getLsbD 7, z := decide (r.value = 0x00#8) }

end Sys2Proof.Machine
end

