-- ==== Sys2Proof/Machine/Ops.lean ====
section
/-! DEFINITION. The named operations over registers, memory and the stack (R6 to R8, R48), taking an interrupt or break (R185, R207) as one shared operation, and the return from one beside it (R187). -/

namespace Sys2Proof.Machine

/-- `A <- v`. -/
def State.setA (s : State) (v : Byte) : State := { s with a := v }

/-- `X <- v`. -/
def State.setX (s : State) (v : Byte) : State := { s with x := v }

/-- `Y <- v`. -/
def State.setY (s : State) (v : Byte) : State := { s with y := v }

/-- `S <- v`. -/
def State.setSp (s : State) (v : Byte) : State := { s with sp := v }

/-- `pc <- target`. -/
def State.setPc (s : State) (w : Addr) : State := { s with pc := w }

/-- Writes the six flags. -/
def State.setP (s : State) (p : Flags) : State := { s with p := p }

/-- Replaces memory. -/
def State.setMem (s : State) (m : Memory) : State := { s with mem := m }

/-- One more free value has been drawn. -/
def State.drawn (s : State) : State := { s with draws := s.draws + 1 }

/-- The devices have answered a read (R48): a free value has been drawn, and they may be in another
state. -/
def State.answered (s : State) (address : Nat) : State :=
  { s with draws := s.draws + 1, device := Config.deviceAfterRead s.device s.draws address }

/-- A write outside ram is recorded, and the devices may be in another state (R48, U6). -/
def State.record (s : State) (c : Host.Cell) : State :=
  { s with events := c :: s.events, device := Config.deviceAfterWrite s.device s.draws c.1 c.2 }

/-- Marks that a JSR's pushes address its own bytes, when they do (R170, U9). -/
def State.markJsr (s : State) (b : Bool) : State := { s with jsrOverlap := s.jsrOverlap || b }

/-- `SetNZ(v)` of R9. -/
def State.setNZ (s : State) (v : Byte) : State := s.setP (s.p.withNZ v)

/-- What an address is in a list of regions: the first region that holds it decides, ram where none
does (R48). -/
def kindIn : List Config.Region → Nat → Config.RegionKind
  | [], _ => .ram
  | r :: rest, a => if r.base ≤ a ∧ a < r.base + r.size then r.kind else kindIn rest a

/-- What an address is on this machine's platform (R48). -/
def State.kindAt (s : State) (a : Addr) : Config.RegionKind :=
  kindIn s.cfg.regions a.toNat

/-- The byte a read at an address gives now (R7, R48): the stored byte of ram and rom, the answer of
the devices in their state now, a free value of an unmapped address. -/
def State.peek (s : State) (a : Addr) : Byte :=
  match s.kindAt a with
  | .ram | .rom => s.mem.read a.toNat
  | .device => Config.deviceByte s.device s.draws a.toNat
  | .unmapped => Config.busByte s.draws a.toNat

/-- The state after a read at an address (R48): a free value has been used where one was, and a read
of a device may have changed the devices' state. -/
def State.touch (s : State) (a : Addr) : State :=
  match s.kindAt a with
  | .ram | .rom => s
  | .device => s.answered a.toNat
  | .unmapped => s.drawn

/-- `MemRead(addr, 1)` of R7: the byte and the state after the access. -/
def memRead (a : Addr) (s : State) : Byte × State :=
  (s.peek a, s.touch a)

/-- `MemWrite(addr, 1, v)` of R7: ram takes the byte; elsewhere memory stays, the write is recorded and
the devices' state may change (R48, U6). -/
def memWrite (a : Addr) (v : Byte) (s : State) : State :=
  match s.kindAt a with
  | .ram => s.setMem (s.mem.write a.toNat v)
  | .rom | .device | .unmapped => s.record (a.toNat, v)

/-- Two bytes as a word, the low byte's address first and read first (R7, R44). -/
def readPair (low high : Addr) (s : State) : Addr × State :=
  let l := memRead low s
  let h := memRead high l.2
  (joinBytes h.1 l.1, h.2)

/-- `Read16(a)` of R7. -/
def read16 (a : Addr) (s : State) : Addr × State :=
  readPair a (a + 1#16) s

/-- `Read16ZP(z)` of R7: both addresses in page zero. -/
def read16ZeroPage (z : Byte) (s : State) : Addr × State :=
  readPair (zeroExtend16 z) (zeroExtend16 (z + 1#8)) s

/-- `Read16PageWrap(a)` of R7: the second address stays in the page of the first. -/
def read16PageWrap (a : Addr) (s : State) : Addr × State :=
  readPair a (joinBytes (highByte a) (lowByte a + 1#8)) s

/-- The address the stack pointer stands for: `{0x01, S}` (R8, R42). -/
def stackAddr (sp : Byte) : Addr :=
  joinBytes 0x01#8 sp

/-- `Push8(v)` of R8. -/
def push8 (v : Byte) (s : State) : State :=
  (memWrite (stackAddr s.sp) v s).setSp (s.sp - 1#8)

/-- `Pull8()` of R8. -/
def pull8 (s : State) : Byte × State :=
  memRead (stackAddr (s.sp + 1#8)) (s.setSp (s.sp + 1#8))

/-- `Push16(w)` of R8: high byte first. -/
def push16 (w : Addr) (s : State) : State :=
  push8 (lowByte w) (push8 (highByte w) s)

/-- `Pull16()` of R8: low byte first. -/
def pull16 (s : State) : Addr × State :=
  let l := pull8 s
  let h := pull8 l.2
  (joinBytes h.1 l.1, h.2)

/-- The three pushes of an exception (R185, R207): the return address, high byte first, and P with the
given B bit. -/
def pushFrame (ret : Addr) (b : Bool) (s : State) : State :=
  push8 (packP b s.p) (push16 ret s)

/-- Taking an exception (R185, R207): the return address and P with the given B bit are pushed, I is
set, D stays, and pc comes from the vector. BRK, IRQ and NMI differ only in the three arguments. -/
def enterHandler (ret : Addr) (b : Bool) (vector : Addr) (s : State) : State :=
  let pushed := pushFrame ret b s
  let masked := pushed.setP { pushed.p with i := true }
  let target := read16 vector masked
  target.2.setPc target.1

/-- Returning from an exception (R187): P is pulled, then pc, with no +1. -/
def returnFromHandler (s : State) : State :=
  let v := pull8 s
  let target := pull16 (v.2.setP (unpackP v.1))
  target.2.setPc target.1

end Sys2Proof.Machine
end

