-- ==== Sys2Proof/Machine/Operands.lean ====
section
/-! DEFINITION. The addressing modes (R80 to R95): the effective address of every memory mode, reading and writing an operand, and the two kinds of control-transfer target. -/

namespace Sys2Proof.Machine

/-- `EA(mode)` of R80, with the state after its pointer reads: R84 to R89, R91, R92. -/
def effAddr : MemMode → State → Addr × State
  | .zp z, s => (zeroExtend16 z, s)
  | .zpX z, s => (zeroExtend16 (z + s.x), s)
  | .zpY z, s => (zeroExtend16 (z + s.y), s)
  | .abs w, s => (w, s)
  | .absX w, s => (w + zeroExtend16 s.x, s)
  | .absY w, s => (w + zeroExtend16 s.y, s)
  | .indX z, s => read16ZeroPage (z + s.x) s
  | .indY z, s =>
    let base := read16ZeroPage z s
    (base.1 + zeroExtend16 s.y, base.2)

/-- `ReadOperand(mode)` of R80 for an immediate or memory operand. -/
def readOperand : Src → State → Byte × State
  | .imm v, s => (v, s)
  | .mem m, s =>
    let ea := effAddr m s
    memRead ea.1 ea.2

/-- A store (R100): the byte written at the effective address. -/
def storeOperand (m : MemMode) (v : Byte) (s : State) : State :=
  let ea := effAddr m s
  memWrite ea.1 v ea.2

/-- `ReadOperand` then `WriteOperand` with the same effective address (R80, R82): the byte read, and
the state after `f` of it has been written back. -/
def modifyOperand (o : Rmw) (f : Byte → Byte) (s : State) : Byte × State :=
  match o with
  | .acc => (s.a, s.setA (f s.a))
  | .mem m =>
    let ea := effAddr m s
    let v := memRead ea.1 ea.2
    (v.1, memWrite ea.1 (f v.1) v.2)

/-- The target of a branch (R93): the displacement is signed and added to the address after the
branch, which `pc` holds. -/
def branchTarget (d : Byte) (s : State) : Addr :=
  s.pc + signExtend16 d

/-- The target of `JMP (addr)` (R90), its second byte from the page of the first. -/
def indirectTarget (w : Addr) (s : State) : Addr × State :=
  read16PageWrap w s

end Sys2Proof.Machine
end

