-- ==== Sys2Proof/Machine/Boundary.lean ====
section
/-! DEFINITION. What a step does around the pseudocode of an instruction (R64): the lines at the boundary, the poll (R206, R211), interrupt entry (R207), reset (R230), the fetch (R61, R66), and `i_poll` after the instruction (R211). -/

namespace Sys2Proof.Machine

/-- An event the poll accepts (R206). -/
inductive Event where
  | nmi
  | irq
  deriving DecidableEq, Repr

/-- No line is asserted and NMIB makes no transition (R4, the default platform). -/
def quietLines : LineInputs :=
  { resb := .high, irqbLow := false, nmibLevels := [] }

/-- The lines at the coming boundary. -/
def State.lines (s : State) : LineInputs :=
  match s.schedule with
  | [] => quietLines
  | l :: _ => l

/-- A high-to-low transition somewhere in a run of levels that follows the given one (R204); `true` is
low. -/
def fallingEdge : Bool → List Bool → Bool
  | _, [] => false
  | low, l :: rest => (!low && l) || fallingEdge l rest

/-- The level a run of levels ends at. -/
def lastLevel : Bool → List Bool → Bool
  | low, [] => low
  | _, l :: rest => lastLevel l rest

/-- The boundary is reached: its schedule entry is used up, and a falling edge on NMIB since the
boundary before has set `nmi_pending` (R64, R204). -/
def sampleLines (s : State) : State :=
  { s with
    schedule := s.schedule.tail
    nmibLow := lastLevel s.nmibLow s.lines.nmibLevels
    nmiPending := s.nmiPending || fallingEdge s.nmibLow s.lines.nmibLevels }

/-- Whether an IRQ whose line is low is taken: `I_eff == 0` of R206 by the parameter `IFlagLatency`
of R211. Where both readings are admitted and differ, a free value decides. -/
def irqUnmasked (s : State) : Bool × State :=
  match s.cfg.iFlagLatency with
  | .none => (!s.p.i, s)
  | .oneInstruction => (!s.iPoll, s)
  | .bothAdmitted =>
    if s.iPoll = s.p.i then (!s.p.i, s) else (Config.irqTaken s.draws, s.drawn)

/-- `InterruptPoll()` of R206: NMI before IRQ. -/
def interruptPoll (irqbLow : Bool) (s : State) : Option Event × State :=
  if s.nmiPending then (some .nmi, s)
  else if irqbLow then
    let u := irqUnmasked s
    (if u.1 then some .irq else none, u.2)
  else (none, s)

/-- `InterruptEntry(e)` of R207, with `i_poll` after it (R64). -/
def interruptEntry : Event → State → State
  | .nmi, s =>
    let t := enterHandler s.pc false Config.nmiVector { s with nmiPending := false }
    { t with iPoll := t.p.i }
  | .irq, s =>
    let t := enterHandler s.pc false Config.irqVector s
    { t with iPoll := t.p.i }

/-- `Reset()` of R230. The registers and flags it leaves unspecified take five free values
(`ResetDraw`); nothing is written to memory. -/
def resetSequence (s : State) : State :=
  let flags := unpackP (Config.resetByte (s.draws + 4))
  let drawn : State :=
    { s with
      a := Config.resetByte s.draws
      x := Config.resetByte (s.draws + 1)
      y := Config.resetByte (s.draws + 2)
      sp := Config.resetByte (s.draws + 3)
      p := { flags with i := true }
      nmiPending := false
      iPoll := true
      draws := s.draws + 5 }
  let entry := read16 Config.resetVector drawn
  entry.2.setPc entry.1

/-- Reads `n` bytes at ascending addresses, each taken modulo 65536 (R61). -/
def readBytes : Nat → Addr → State → List Byte × State
  | 0, _, s => ([], s)
  | n + 1, a, s =>
    let b := memRead a s
    let rest := readBytes n (a + 1#16) b.2
    (b.1 :: rest.1, rest.2)

/-- The fetch and decode of R64: the opcode, then as many operand bytes as its length asks for, and pc
at the next instruction; or the fault of R66. -/
def fetch (s : State) : Except Fault (Instr × State) :=
  let op := memRead s.pc s
  match opcodeLength op.1 with
  | none => .error (.illegalOpcode op.1 s.pc)
  | some len =>
    let rest := readBytes (len - 1) (s.pc + 1#16) op.2
    match decode (op.1 :: rest.1) with
    | .ok (i, _) => .ok (i, rest.2.setPc (s.pc + BitVec.ofNat 16 len))
    | .error _ => .error (.illegalOpcode op.1 s.pc)

/-- The three addresses an exception pushes to (R185, R207). -/
def entryAddrs (s : State) : List Addr :=
  [stackAddr s.sp, stackAddr (s.sp - 1#8), stackAddr (s.sp - 2#8)]

/-- The addresses an instruction writes, in the order of its writes; `s` is the state after its fetch
(R47). -/
def storeAddrs (i : Instr) (s : State) : List Addr :=
  match i.mnemonic with
  | .STA | .STX | .STY | .INC | .DEC | .ASL | .LSR | .ROL | .ROR =>
    match i.operand with
    | .memory m => [(effAddr m s).1]
    | .implied | .accumulator | .immediate _ | .target _ | .indirect _ | .relative _ => []
  | .PHA | .PHP => [stackAddr s.sp]
  | .JSR => [stackAddr s.sp, stackAddr (s.sp - 1#8)]
  | .BRK => entryAddrs s
  | .LDA | .LDX | .LDY | .TAX | .TAY | .TSX | .TXA | .TXS | .TYA | .PLA | .PLP | .AND | .EOR | .ORA
  | .BIT | .ADC | .SBC | .CMP | .CPX | .CPY | .DEX | .DEY | .INX | .INY | .BCC | .BCS | .BEQ | .BMI
  | .BNE | .BPL | .BVC | .BVS | .JMP | .RTS | .CLC | .CLD | .CLI | .CLV | .SEC | .SED | .SEI | .NOP
  | .RTI => []

/-- What a reset leaves of the writes of the instruction it cuts short (R205, U8): each of them has
happened, with any value, or has not. -/
def cutWrites : List Addr → State → State
  | [], s => s
  | a :: rest, s =>
    cutWrites rest
      (if Config.cutWriteHappens s.draws then memWrite a (Config.cutWriteByte s.draws) s.drawn
      else s.drawn)

/-- RESB is asserted inside the instruction or entry that writes the given addresses (R205, U8): its
writes are open, the devices are in an open state, and the reset sequence runs. -/
def cutShort (addrs : List Addr) (s : State) : State :=
  let t := cutWrites addrs s
  resetSequence { t with draws := t.draws + 1, device := Config.deviceAfterCut t.device t.draws }

/-- A step in which RESB is asserted after the boundary (R205): what begins at the boundary is the
accepted interrupt's entry, else the instruction at pc, and it is cut short. -/
def resetInside (irqbLow : Bool) (s : State) : Except Fault State :=
  let poll := interruptPoll irqbLow s
  match poll.1 with
  | some _ => .ok (cutShort (entryAddrs poll.2) poll.2)
  | none =>
    match fetch poll.2 with
    | .error f => .error f
    | .ok (i, t) => .ok (cutShort (storeAddrs i t) t)

/-- The instructions whose change of I the next poll sees late (R211). -/
def delaysPoll (i : Instr) : Bool :=
  decide (i.mnemonic = .CLI) || decide (i.mnemonic = .SEI) || decide (i.mnemonic = .PLP)

/-- The last line of R64: `i_poll` after an instruction that began with the I flag `iBefore`. -/
def afterInstr (i : Instr) (iBefore : Bool) (s : State) : State :=
  { s with iPoll := if delaysPoll i then iBefore else s.p.i }

/-- The three bytes of an instruction put into memory at pc and after it. -/
def placeBytes : List Byte → Addr → Memory → Memory
  | [], _, m => m
  | b :: rest, a, m => placeBytes rest (a + 1#16) (m.write a.toNat b)

/-- Regions that make the three bytes at pc ram, put before the others where one of the three is not
readable memory already. -/
def fetchableRegions (s : State) : List Config.Region :=
  let addrs := [s.pc, s.pc + 1#16, s.pc + 2#16]
  let plain (a : Addr) : Bool := decide (s.kindAt a = .ram) || decide (s.kindAt a = .rom)
  if addrs.all plain then s.cfg.regions
  else addrs.map (fun a => { base := a.toNat, size := 1, kind := .ram }) ++ s.cfg.regions

/-- The next boundary made a quiet one: no NMI waits and no line is asserted there. -/
def quietNextBoundary (s : State) : State :=
  { s with
    nmiPending := false
    schedule := match s.schedule with
      | [] => []
      | rest => quietLines :: rest }

end Sys2Proof.Machine
end

