-- ==== Sys2Proof/Machine/Arithmetic.lean ====
section
/-! DEFINITION. Arithmetic and compare instructions (R130 to R138). One definition for each row of the opcode table; the exec arms call them. -/

namespace Sys2Proof.Machine

/-- The result of an addition or subtraction put into A, N, V, Z and C. -/
def State.applyAlu (s : State) (r : AluResult) : State :=
  (s.setA r.value).setP (s.p.withAlu r)

/-- ADC and SBC (R131, R132): the operand is read; with D = 0 the binary result is taken, with D = 1
the decimal one, or the refusal that `DecimalPolicy = refuse` asks for. -/
def addSub (binary decimal : Byte → Byte → Bool → AluResult) (o : Src) (s : State) : Result :=
  let r := readOperand o s
  if s.p.d then
    match s.cfg.decimalPolicy with
    | .nmosAlgorithm => .next (r.2.applyAlu (decimal s.a r.1 s.p.c))
    | .refuse => .refused .decimal
  else .next (r.2.applyAlu (binary s.a r.1 s.p.c))

/-- ADC (R131, R133). -/
def adc (o : Src) (s : State) : Result :=
  addSub addBinary adcDecimal o s

/-- SBC (R132, R134). -/
def sbc (o : Src) (s : State) : Result :=
  addSub subBinary sbcDecimal o s

/-- CMP, CPX, CPY (R135 to R138): only N, Z and C are written. -/
def compareReg (reg : Byte) (o : Src) (s : State) : Result :=
  let r := readOperand o s
  .next (r.2.setP (s.p.withCompare reg r.1))

/-- `ADC #value`, opcode 69 (R131, R83). -/
def execAdcImm (v : Byte) (s : State) : Result :=
  adc (.imm v) s

/-- `ADC zp`, opcode 65 (R131, R84). -/
def execAdcZp (z : Byte) (s : State) : Result :=
  adc (.mem (.zp z)) s

/-- `ADC zp,X`, opcode 75 (R131, R85). -/
def execAdcZpX (z : Byte) (s : State) : Result :=
  adc (.mem (.zpX z)) s

/-- `ADC addr`, opcode 6D (R131, R87). -/
def execAdcAbs (w : Addr) (s : State) : Result :=
  adc (.mem (.abs w)) s

/-- `ADC addr,X`, opcode 7D (R131, R88). -/
def execAdcAbsX (w : Addr) (s : State) : Result :=
  adc (.mem (.absX w)) s

/-- `ADC addr,Y`, opcode 79 (R131, R89). -/
def execAdcAbsY (w : Addr) (s : State) : Result :=
  adc (.mem (.absY w)) s

/-- `ADC (addr,X)`, opcode 61 (R131, R91). -/
def execAdcIndX (z : Byte) (s : State) : Result :=
  adc (.mem (.indX z)) s

/-- `ADC (addr),Y`, opcode 71 (R131, R92). -/
def execAdcIndY (z : Byte) (s : State) : Result :=
  adc (.mem (.indY z)) s

/-- `SBC #value`, opcode E9 (R132, R83). -/
def execSbcImm (v : Byte) (s : State) : Result :=
  sbc (.imm v) s

/-- `SBC zp`, opcode E5 (R132, R84). -/
def execSbcZp (z : Byte) (s : State) : Result :=
  sbc (.mem (.zp z)) s

/-- `SBC zp,X`, opcode F5 (R132, R85). -/
def execSbcZpX (z : Byte) (s : State) : Result :=
  sbc (.mem (.zpX z)) s

/-- `SBC addr`, opcode ED (R132, R87). -/
def execSbcAbs (w : Addr) (s : State) : Result :=
  sbc (.mem (.abs w)) s

/-- `SBC addr,X`, opcode FD (R132, R88). -/
def execSbcAbsX (w : Addr) (s : State) : Result :=
  sbc (.mem (.absX w)) s

/-- `SBC addr,Y`, opcode F9 (R132, R89). -/
def execSbcAbsY (w : Addr) (s : State) : Result :=
  sbc (.mem (.absY w)) s

/-- `SBC (addr,X)`, opcode E1 (R132, R91). -/
def execSbcIndX (z : Byte) (s : State) : Result :=
  sbc (.mem (.indX z)) s

/-- `SBC (addr),Y`, opcode F1 (R132, R92). -/
def execSbcIndY (z : Byte) (s : State) : Result :=
  sbc (.mem (.indY z)) s

/-- `CMP #value`, opcode C9 (R135, R83). -/
def execCmpImm (v : Byte) (s : State) : Result :=
  compareReg s.a (.imm v) s

/-- `CMP zp`, opcode C5 (R135, R84). -/
def execCmpZp (z : Byte) (s : State) : Result :=
  compareReg s.a (.mem (.zp z)) s

/-- `CMP zp,X`, opcode D5 (R135, R85). -/
def execCmpZpX (z : Byte) (s : State) : Result :=
  compareReg s.a (.mem (.zpX z)) s

/-- `CMP addr`, opcode CD (R135, R87). -/
def execCmpAbs (w : Addr) (s : State) : Result :=
  compareReg s.a (.mem (.abs w)) s

/-- `CMP addr,X`, opcode DD (R135, R88). -/
def execCmpAbsX (w : Addr) (s : State) : Result :=
  compareReg s.a (.mem (.absX w)) s

/-- `CMP addr,Y`, opcode D9 (R135, R89). -/
def execCmpAbsY (w : Addr) (s : State) : Result :=
  compareReg s.a (.mem (.absY w)) s

/-- `CMP (addr,X)`, opcode C1 (R135, R91). -/
def execCmpIndX (z : Byte) (s : State) : Result :=
  compareReg s.a (.mem (.indX z)) s

/-- `CMP (addr),Y`, opcode D1 (R135, R92). -/
def execCmpIndY (z : Byte) (s : State) : Result :=
  compareReg s.a (.mem (.indY z)) s

/-- `CPX #value`, opcode E0 (R136, R83). -/
def execCpxImm (v : Byte) (s : State) : Result :=
  compareReg s.x (.imm v) s

/-- `CPX zp`, opcode E4 (R136, R84). -/
def execCpxZp (z : Byte) (s : State) : Result :=
  compareReg s.x (.mem (.zp z)) s

/-- `CPX addr`, opcode EC (R136, R87). -/
def execCpxAbs (w : Addr) (s : State) : Result :=
  compareReg s.x (.mem (.abs w)) s

/-- `CPY #value`, opcode C0 (R137, R83). -/
def execCpyImm (v : Byte) (s : State) : Result :=
  compareReg s.y (.imm v) s

/-- `CPY zp`, opcode C4 (R137, R84). -/
def execCpyZp (z : Byte) (s : State) : Result :=
  compareReg s.y (.mem (.zp z)) s

/-- `CPY addr`, opcode CC (R137, R87). -/
def execCpyAbs (w : Addr) (s : State) : Result :=
  compareReg s.y (.mem (.abs w)) s

end Sys2Proof.Machine
end

