-- ==== Sys2Proof/Machine/BranchJump.lean ====
section
/-! DEFINITION. Branches, jumps and subroutine instructions (R160 to R171). `pc` is the address of the instruction after this one (R64). One definition for each row of the opcode table; the exec arms call them. -/

namespace Sys2Proof.Machine

/-- `Branch(cond)` of R160. -/
def branch (cond : Bool) (d : Byte) (s : State) : Result :=
  .next (if cond then s.setPc (branchTarget d s) else s)

/-- Whether one of the three bytes of the JSR that ends before `pc` is at an address its own pushes
write (R170, U9). -/
def jsrOverlaps (s : State) : Bool :=
  let bytes := [s.pc - 3#16, s.pc - 2#16, s.pc - 1#16]
  bytes.contains (stackAddr s.sp) || bytes.contains (stackAddr (s.sp - 1#8))

/-- `BCC addr`, opcode 90 (R161, R93): taken when C = 0. -/
def execBcc (d : Byte) (s : State) : Result :=
  branch (!s.p.c) d s

/-- `BCS addr`, opcode B0 (R162, R93): taken when C = 1. -/
def execBcs (d : Byte) (s : State) : Result :=
  branch s.p.c d s

/-- `BEQ addr`, opcode F0 (R163, R93): taken when Z = 1. -/
def execBeq (d : Byte) (s : State) : Result :=
  branch s.p.z d s

/-- `BMI addr`, opcode 30 (R164, R93): taken when N = 1. -/
def execBmi (d : Byte) (s : State) : Result :=
  branch s.p.n d s

/-- `BNE addr`, opcode D0 (R165, R93): taken when Z = 0. -/
def execBne (d : Byte) (s : State) : Result :=
  branch (!s.p.z) d s

/-- `BPL addr`, opcode 10 (R166, R93): taken when N = 0. -/
def execBpl (d : Byte) (s : State) : Result :=
  branch (!s.p.n) d s

/-- `BVC addr`, opcode 50 (R167, R93): taken when V = 0. -/
def execBvc (d : Byte) (s : State) : Result :=
  branch (!s.p.v) d s

/-- `BVS addr`, opcode 70 (R168, R93): taken when V = 1. -/
def execBvs (d : Byte) (s : State) : Result :=
  branch s.p.v d s

/-- `JMP addr`, opcode 4C (R169, R87). -/
def execJmpAbs (w : Addr) (s : State) : Result :=
  .next (s.setPc w)

/-- `JMP (addr)`, opcode 6C (R169, R90). -/
def execJmpInd (w : Addr) (s : State) : Result :=
  let t := indirectTarget w s
  .next (t.2.setPc t.1)

/-- `JSR addr`, opcode 20 (R170, R87): the address of its third byte is pushed, high byte first; pc takes the target. -/
def execJsr (w : Addr) (s : State) : Result :=
  .next ((push16 (s.pc - 1#16) (s.markJsr (jsrOverlaps s))).setPc w)

/-- `RTS`, opcode 60 (R171): pc takes the pulled address plus 1. -/
def execRts (s : State) : Result :=
  let r := pull16 s
  .next (r.2.setPc (r.1 + 1#16))

end Sys2Proof.Machine
end

