-- ==== Sys2Proof/Machine/FlagOps.lean ====
section
/-! DEFINITION. Flag instructions (R175 to R182). One definition for each row of the opcode table; the exec arms call them. -/

namespace Sys2Proof.Machine

/-- `CLC`, opcode 18 (R176): C = 0. -/
def execClc (s : State) : Result :=
  .next (s.setP { s.p with c := false })

/-- `CLD`, opcode D8 (R177): D = 0. -/
def execCld (s : State) : Result :=
  .next (s.setP { s.p with d := false })

/-- `CLI`, opcode 58 (R178): I = 0. -/
def execCli (s : State) : Result :=
  .next (s.setP { s.p with i := false })

/-- `CLV`, opcode B8 (R179): V = 0. -/
def execClv (s : State) : Result :=
  .next (s.setP { s.p with v := false })

/-- `SEC`, opcode 38 (R180): C = 1. -/
def execSec (s : State) : Result :=
  .next (s.setP { s.p with c := true })

/-- `SED`, opcode F8 (R181): D = 1. -/
def execSed (s : State) : Result :=
  .next (s.setP { s.p with d := true })

/-- `SEI`, opcode 78 (R182): I = 1. -/
def execSei (s : State) : Result :=
  .next (s.setP { s.p with i := true })

end Sys2Proof.Machine
end

