-- ==== Sys2Proof/Machine/IncDec.lean ====
section
/-! DEFINITION. Increment and decrement instructions (R140 to R146). One definition for each row of the opcode table; the exec arms call them. -/

namespace Sys2Proof.Machine

/-- INC and DEC on memory (R141, R144): one read and one write at the same effective address, N and Z
from the result. -/
def incDec (f : Byte → Byte) (m : MemMode) (s : State) : Result :=
  let r := modifyOperand (.mem m) f s
  .next (r.2.setNZ (f r.1))

/-- `DEC zp`, opcode C6 (R141, R84). -/
def execDecZp (z : Byte) (s : State) : Result :=
  incDec (fun v => v - 1#8) (.zp z) s

/-- `DEC zp,X`, opcode D6 (R141, R85). -/
def execDecZpX (z : Byte) (s : State) : Result :=
  incDec (fun v => v - 1#8) (.zpX z) s

/-- `DEC addr`, opcode CE (R141, R87). -/
def execDecAbs (w : Addr) (s : State) : Result :=
  incDec (fun v => v - 1#8) (.abs w) s

/-- `DEC addr,X`, opcode DE (R141, R88). -/
def execDecAbsX (w : Addr) (s : State) : Result :=
  incDec (fun v => v - 1#8) (.absX w) s

/-- `DEX`, opcode CA (R142). -/
def execDex (s : State) : Result :=
  .next ((s.setX (s.x - 1#8)).setNZ (s.x - 1#8))

/-- `DEY`, opcode 88 (R143). -/
def execDey (s : State) : Result :=
  .next ((s.setY (s.y - 1#8)).setNZ (s.y - 1#8))

/-- `INC zp`, opcode E6 (R144, R84). -/
def execIncZp (z : Byte) (s : State) : Result :=
  incDec (fun v => v + 1#8) (.zp z) s

/-- `INC zp,X`, opcode F6 (R144, R85). -/
def execIncZpX (z : Byte) (s : State) : Result :=
  incDec (fun v => v + 1#8) (.zpX z) s

/-- `INC addr`, opcode EE (R144, R87). -/
def execIncAbs (w : Addr) (s : State) : Result :=
  incDec (fun v => v + 1#8) (.abs w) s

/-- `INC addr,X`, opcode FE (R144, R88). -/
def execIncAbsX (w : Addr) (s : State) : Result :=
  incDec (fun v => v + 1#8) (.absX w) s

/-- `INX`, opcode E8 (R145). -/
def execInx (s : State) : Result :=
  .next ((s.setX (s.x + 1#8)).setNZ (s.x + 1#8))

/-- `INY`, opcode C8 (R146). -/
def execIny (s : State) : Result :=
  .next ((s.setY (s.y + 1#8)).setNZ (s.y + 1#8))

end Sys2Proof.Machine
end

