-- ==== Sys2Proof/Machine/LoadStore.lean ====
section
/-! DEFINITION. Loads and stores (R100 to R106). One definition for each row of the opcode table; the exec arms call them. -/

namespace Sys2Proof.Machine

/-- LDA (R101): A takes the operand; N and Z from it. -/
def lda (o : Src) (s : State) : Result :=
  let r := readOperand o s
  .next ((r.2.setA r.1).setNZ r.1)

/-- LDX (R102): X takes the operand; N and Z from it. -/
def ldx (o : Src) (s : State) : Result :=
  let r := readOperand o s
  .next ((r.2.setX r.1).setNZ r.1)

/-- LDY (R103): Y takes the operand; N and Z from it. -/
def ldy (o : Src) (s : State) : Result :=
  let r := readOperand o s
  .next ((r.2.setY r.1).setNZ r.1)

/-- STA (R104): A goes to the effective address; no flag changes. -/
def sta (m : MemMode) (s : State) : Result :=
  .next (storeOperand m s.a s)

/-- STX (R105): X goes to the effective address; no flag changes. -/
def stx (m : MemMode) (s : State) : Result :=
  .next (storeOperand m s.x s)

/-- STY (R106): Y goes to the effective address; no flag changes. -/
def sty (m : MemMode) (s : State) : Result :=
  .next (storeOperand m s.y s)

/-- `LDA #value`, opcode A9 (R101, R83). -/
def execLdaImm (v : Byte) (s : State) : Result :=
  lda (.imm v) s

/-- `LDA zp`, opcode A5 (R101, R84). -/
def execLdaZp (z : Byte) (s : State) : Result :=
  lda (.mem (.zp z)) s

/-- `LDA zp,X`, opcode B5 (R101, R85). -/
def execLdaZpX (z : Byte) (s : State) : Result :=
  lda (.mem (.zpX z)) s

/-- `LDA addr`, opcode AD (R101, R87). -/
def execLdaAbs (w : Addr) (s : State) : Result :=
  lda (.mem (.abs w)) s

/-- `LDA addr,X`, opcode BD (R101, R88). -/
def execLdaAbsX (w : Addr) (s : State) : Result :=
  lda (.mem (.absX w)) s

/-- `LDA addr,Y`, opcode B9 (R101, R89). -/
def execLdaAbsY (w : Addr) (s : State) : Result :=
  lda (.mem (.absY w)) s

/-- `LDA (addr,X)`, opcode A1 (R101, R91). -/
def execLdaIndX (z : Byte) (s : State) : Result :=
  lda (.mem (.indX z)) s

/-- `LDA (addr),Y`, opcode B1 (R101, R92). -/
def execLdaIndY (z : Byte) (s : State) : Result :=
  lda (.mem (.indY z)) s

/-- `LDX #value`, opcode A2 (R102, R83). -/
def execLdxImm (v : Byte) (s : State) : Result :=
  ldx (.imm v) s

/-- `LDX zp`, opcode A6 (R102, R84). -/
def execLdxZp (z : Byte) (s : State) : Result :=
  ldx (.mem (.zp z)) s

/-- `LDX zp,Y`, opcode B6 (R102, R86). -/
def execLdxZpY (z : Byte) (s : State) : Result :=
  ldx (.mem (.zpY z)) s

/-- `LDX addr`, opcode AE (R102, R87). -/
def execLdxAbs (w : Addr) (s : State) : Result :=
  ldx (.mem (.abs w)) s

/-- `LDX addr,Y`, opcode BE (R102, R89). -/
def execLdxAbsY (w : Addr) (s : State) : Result :=
  ldx (.mem (.absY w)) s

/-- `LDY #value`, opcode A0 (R103, R83). -/
def execLdyImm (v : Byte) (s : State) : Result :=
  ldy (.imm v) s

/-- `LDY zp`, opcode A4 (R103, R84). -/
def execLdyZp (z : Byte) (s : State) : Result :=
  ldy (.mem (.zp z)) s

/-- `LDY zp,X`, opcode B4 (R103, R85). -/
def execLdyZpX (z : Byte) (s : State) : Result :=
  ldy (.mem (.zpX z)) s

/-- `LDY addr`, opcode AC (R103, R87). -/
def execLdyAbs (w : Addr) (s : State) : Result :=
  ldy (.mem (.abs w)) s

/-- `LDY addr,X`, opcode BC (R103, R88). -/
def execLdyAbsX (w : Addr) (s : State) : Result :=
  ldy (.mem (.absX w)) s

/-- `STA zp`, opcode 85 (R104, R84). -/
def execStaZp (z : Byte) (s : State) : Result :=
  sta (.zp z) s

/-- `STA zp,X`, opcode 95 (R104, R85). -/
def execStaZpX (z : Byte) (s : State) : Result :=
  sta (.zpX z) s

/-- `STA addr`, opcode 8D (R104, R87). -/
def execStaAbs (w : Addr) (s : State) : Result :=
  sta (.abs w) s

/-- `STA addr,X`, opcode 9D (R104, R88). -/
def execStaAbsX (w : Addr) (s : State) : Result :=
  sta (.absX w) s

/-- `STA addr,Y`, opcode 99 (R104, R89). -/
def execStaAbsY (w : Addr) (s : State) : Result :=
  sta (.absY w) s

/-- `STA (addr,X)`, opcode 81 (R104, R91). -/
def execStaIndX (z : Byte) (s : State) : Result :=
  sta (.indX z) s

/-- `STA (addr),Y`, opcode 91 (R104, R92). -/
def execStaIndY (z : Byte) (s : State) : Result :=
  sta (.indY z) s

/-- `STX zp`, opcode 86 (R105, R84). -/
def execStxZp (z : Byte) (s : State) : Result :=
  stx (.zp z) s

/-- `STX zp,Y`, opcode 96 (R105, R86). -/
def execStxZpY (z : Byte) (s : State) : Result :=
  stx (.zpY z) s

/-- `STX addr`, opcode 8E (R105, R87). -/
def execStxAbs (w : Addr) (s : State) : Result :=
  stx (.abs w) s

/-- `STY zp`, opcode 84 (R106, R84). -/
def execStyZp (z : Byte) (s : State) : Result :=
  sty (.zp z) s

/-- `STY zp,X`, opcode 94 (R106, R85). -/
def execStyZpX (z : Byte) (s : State) : Result :=
  sty (.zpX z) s

/-- `STY addr`, opcode 8C (R106, R87). -/
def execStyAbs (w : Addr) (s : State) : Result :=
  sty (.abs w) s

end Sys2Proof.Machine
end

