-- ==== Sys2Proof/Machine/Logical.lean ====
section
/-! DEFINITION. Logical instructions (R125 to R129). One definition for each row of the opcode table; the exec arms call them. -/

namespace Sys2Proof.Machine

/-- AND, EOR, ORA (R125 to R128): A combined with the operand, N and Z from the result. -/
def logical (f : Byte → Byte → Byte) (o : Src) (s : State) : Result :=
  let r := readOperand o s
  let v := f s.a r.1
  .next ((r.2.setA v).setNZ v)

/-- BIT (R129): Z from A AND M, N and V from bits 7 and 6 of M; A and memory stay. -/
def bitTest (o : Src) (s : State) : Result :=
  let r := readOperand o s
  .next (r.2.setP { s.p with z := decide (s.a &&& r.1 = 0x00#8), n := r.1.getLsbD 7,
                             v := r.1.getLsbD 6 })

/-- `AND #value`, opcode 29 (R126, R83). -/
def execAndImm (v : Byte) (s : State) : Result :=
  logical (fun a m => a &&& m) (.imm v) s

/-- `AND zp`, opcode 25 (R126, R84). -/
def execAndZp (z : Byte) (s : State) : Result :=
  logical (fun a m => a &&& m) (.mem (.zp z)) s

/-- `AND zp,X`, opcode 35 (R126, R85). -/
def execAndZpX (z : Byte) (s : State) : Result :=
  logical (fun a m => a &&& m) (.mem (.zpX z)) s

/-- `AND addr`, opcode 2D (R126, R87). -/
def execAndAbs (w : Addr) (s : State) : Result :=
  logical (fun a m => a &&& m) (.mem (.abs w)) s

/-- `AND addr,X`, opcode 3D (R126, R88). -/
def execAndAbsX (w : Addr) (s : State) : Result :=
  logical (fun a m => a &&& m) (.mem (.absX w)) s

/-- `AND addr,Y`, opcode 39 (R126, R89). -/
def execAndAbsY (w : Addr) (s : State) : Result :=
  logical (fun a m => a &&& m) (.mem (.absY w)) s

/-- `AND (addr,X)`, opcode 21 (R126, R91). -/
def execAndIndX (z : Byte) (s : State) : Result :=
  logical (fun a m => a &&& m) (.mem (.indX z)) s

/-- `AND (addr),Y`, opcode 31 (R126, R92). -/
def execAndIndY (z : Byte) (s : State) : Result :=
  logical (fun a m => a &&& m) (.mem (.indY z)) s

/-- `EOR #value`, opcode 49 (R127, R83). -/
def execEorImm (v : Byte) (s : State) : Result :=
  logical (fun a m => a ^^^ m) (.imm v) s

/-- `EOR zp`, opcode 45 (R127, R84). -/
def execEorZp (z : Byte) (s : State) : Result :=
  logical (fun a m => a ^^^ m) (.mem (.zp z)) s

/-- `EOR zp,X`, opcode 55 (R127, R85). -/
def execEorZpX (z : Byte) (s : State) : Result :=
  logical (fun a m => a ^^^ m) (.mem (.zpX z)) s

/-- `EOR addr`, opcode 4D (R127, R87). -/
def execEorAbs (w : Addr) (s : State) : Result :=
  logical (fun a m => a ^^^ m) (.mem (.abs w)) s

/-- `EOR addr,X`, opcode 5D (R127, R88). -/
def execEorAbsX (w : Addr) (s : State) : Result :=
  logical (fun a m => a ^^^ m) (.mem (.absX w)) s

/-- `EOR addr,Y`, opcode 59 (R127, R89). -/
def execEorAbsY (w : Addr) (s : State) : Result :=
  logical (fun a m => a ^^^ m) (.mem (.absY w)) s

/-- `EOR (addr,X)`, opcode 41 (R127, R91). -/
def execEorIndX (z : Byte) (s : State) : Result :=
  logical (fun a m => a ^^^ m) (.mem (.indX z)) s

/-- `EOR (addr),Y`, opcode 51 (R127, R92). -/
def execEorIndY (z : Byte) (s : State) : Result :=
  logical (fun a m => a ^^^ m) (.mem (.indY z)) s

/-- `ORA #value`, opcode 09 (R128, R83). -/
def execOraImm (v : Byte) (s : State) : Result :=
  logical (fun a m => a ||| m) (.imm v) s

/-- `ORA zp`, opcode 05 (R128, R84). -/
def execOraZp (z : Byte) (s : State) : Result :=
  logical (fun a m => a ||| m) (.mem (.zp z)) s

/-- `ORA zp,X`, opcode 15 (R128, R85). -/
def execOraZpX (z : Byte) (s : State) : Result :=
  logical (fun a m => a ||| m) (.mem (.zpX z)) s

/-- `ORA addr`, opcode 0D (R128, R87). -/
def execOraAbs (w : Addr) (s : State) : Result :=
  logical (fun a m => a ||| m) (.mem (.abs w)) s

/-- `ORA addr,X`, opcode 1D (R128, R88). -/
def execOraAbsX (w : Addr) (s : State) : Result :=
  logical (fun a m => a ||| m) (.mem (.absX w)) s

/-- `ORA addr,Y`, opcode 19 (R128, R89). -/
def execOraAbsY (w : Addr) (s : State) : Result :=
  logical (fun a m => a ||| m) (.mem (.absY w)) s

/-- `ORA (addr,X)`, opcode 01 (R128, R91). -/
def execOraIndX (z : Byte) (s : State) : Result :=
  logical (fun a m => a ||| m) (.mem (.indX z)) s

/-- `ORA (addr),Y`, opcode 11 (R128, R92). -/
def execOraIndY (z : Byte) (s : State) : Result :=
  logical (fun a m => a ||| m) (.mem (.indY z)) s

/-- `BIT zp`, opcode 24 (R129, R84). -/
def execBitZp (z : Byte) (s : State) : Result :=
  bitTest (.mem (.zp z)) s

/-- `BIT addr`, opcode 2C (R129, R87). -/
def execBitAbs (w : Addr) (s : State) : Result :=
  bitTest (.mem (.abs w)) s

end Sys2Proof.Machine
end

