-- ==== Sys2Proof/Machine/ShiftRotate.lean ====
section
/-! DEFINITION. Shift and rotate instructions (R150 to R154). One definition for each row of the opcode table; the exec arms call them. -/

namespace Sys2Proof.Machine

/-- ASL, LSR, ROL, ROR (R150): the operand is replaced by its shift; C, N and Z are written. -/
def shift (f : Byte → Bool → ShiftResult) (o : Rmw) (s : State) : Result :=
  let r := modifyOperand o (fun v => (f v s.p.c).value) s
  .next (r.2.setP (s.p.withShift (f r.1 s.p.c)))

/-- `ASL A`, opcode 0A (R151, R82). -/
def execAslAcc (s : State) : Result :=
  shift shiftAsl .acc s

/-- `ASL zp`, opcode 06 (R151, R84). -/
def execAslZp (z : Byte) (s : State) : Result :=
  shift shiftAsl (.mem (.zp z)) s

/-- `ASL zp,X`, opcode 16 (R151, R85). -/
def execAslZpX (z : Byte) (s : State) : Result :=
  shift shiftAsl (.mem (.zpX z)) s

/-- `ASL addr`, opcode 0E (R151, R87). -/
def execAslAbs (w : Addr) (s : State) : Result :=
  shift shiftAsl (.mem (.abs w)) s

/-- `ASL addr,X`, opcode 1E (R151, R88). -/
def execAslAbsX (w : Addr) (s : State) : Result :=
  shift shiftAsl (.mem (.absX w)) s

/-- `LSR A`, opcode 4A (R152, R82). -/
def execLsrAcc (s : State) : Result :=
  shift shiftLsr .acc s

/-- `LSR zp`, opcode 46 (R152, R84). -/
def execLsrZp (z : Byte) (s : State) : Result :=
  shift shiftLsr (.mem (.zp z)) s

/-- `LSR zp,X`, opcode 56 (R152, R85). -/
def execLsrZpX (z : Byte) (s : State) : Result :=
  shift shiftLsr (.mem (.zpX z)) s

/-- `LSR addr`, opcode 4E (R152, R87). -/
def execLsrAbs (w : Addr) (s : State) : Result :=
  shift shiftLsr (.mem (.abs w)) s

/-- `LSR addr,X`, opcode 5E (R152, R88). -/
def execLsrAbsX (w : Addr) (s : State) : Result :=
  shift shiftLsr (.mem (.absX w)) s

/-- `ROL A`, opcode 2A (R153, R82). -/
def execRolAcc (s : State) : Result :=
  shift shiftRol .acc s

/-- `ROL zp`, opcode 26 (R153, R84). -/
def execRolZp (z : Byte) (s : State) : Result :=
  shift shiftRol (.mem (.zp z)) s

/-- `ROL zp,X`, opcode 36 (R153, R85). -/
def execRolZpX (z : Byte) (s : State) : Result :=
  shift shiftRol (.mem (.zpX z)) s

/-- `ROL addr`, opcode 2E (R153, R87). -/
def execRolAbs (w : Addr) (s : State) : Result :=
  shift shiftRol (.mem (.abs w)) s

/-- `ROL addr,X`, opcode 3E (R153, R88). -/
def execRolAbsX (w : Addr) (s : State) : Result :=
  shift shiftRol (.mem (.absX w)) s

/-- `ROR A`, opcode 6A (R154, R82). -/
def execRorAcc (s : State) : Result :=
  shift shiftRor .acc s

/-- `ROR zp`, opcode 66 (R154, R84). -/
def execRorZp (z : Byte) (s : State) : Result :=
  shift shiftRor (.mem (.zp z)) s

/-- `ROR zp,X`, opcode 76 (R154, R85). -/
def execRorZpX (z : Byte) (s : State) : Result :=
  shift shiftRor (.mem (.zpX z)) s

/-- `ROR addr`, opcode 6E (R154, R87). -/
def execRorAbs (w : Addr) (s : State) : Result :=
  shift shiftRor (.mem (.abs w)) s

/-- `ROR addr,X`, opcode 7E (R154, R88). -/
def execRorAbsX (w : Addr) (s : State) : Result :=
  shift shiftRor (.mem (.absX w)) s

end Sys2Proof.Machine
end

