-- ==== Sys2Proof/Machine/System.lean ====
section
/-! DEFINITION. System instructions (R185 to R187). One definition for each row of the opcode table; the exec arms call them. -/

namespace Sys2Proof.Machine

/-- `BRK`, opcode 00 (R185): its address + 2 and P with B = 1 are pushed, I is set, pc comes from 0xFFFE. D stays. -/
def execBrk (s : State) : Result :=
  .next (enterHandler (s.pc + 1#16) true Config.irqVector s)

/-- `NOP`, opcode EA (R186): nothing but the pc, which the fetch has advanced. -/
def execNop (s : State) : Result :=
  .next s

/-- `RTI`, opcode 40 (R187): P, then pc with no +1, are pulled. -/
def execRti (s : State) : Result :=
  .next (returnFromHandler s)

end Sys2Proof.Machine
end

