-- ==== Sys2Proof/Machine/TransferStack.lean ====
section
/-! DEFINITION. Register transfers and stack instructions (R110 to R120). One definition for each row of the opcode table; the exec arms call them. -/

namespace Sys2Proof.Machine

/-- `TAX`, opcode AA (R111): X takes A; N and Z from it. -/
def execTax (s : State) : Result :=
  .next ((s.setX s.a).setNZ s.a)

/-- `TAY`, opcode A8 (R112): Y takes A; N and Z from it. -/
def execTay (s : State) : Result :=
  .next ((s.setY s.a).setNZ s.a)

/-- `TSX`, opcode BA (R113): X takes S, the stack pointer (C1, D4); N and Z from it. -/
def execTsx (s : State) : Result :=
  .next ((s.setX s.sp).setNZ s.sp)

/-- `TXA`, opcode 8A (R114): A takes X; N and Z from it. -/
def execTxa (s : State) : Result :=
  .next ((s.setA s.x).setNZ s.x)

/-- `TXS`, opcode 9A (R115): S, the stack pointer, takes X (C1, D4); no flag changes. -/
def execTxs (s : State) : Result :=
  .next (s.setSp s.x)

/-- `TYA`, opcode 98 (R116): A takes Y; N and Z from it. -/
def execTya (s : State) : Result :=
  .next ((s.setA s.y).setNZ s.y)

/-- `PHA`, opcode 48 (R117): A is pushed; no flag changes. -/
def execPha (s : State) : Result :=
  .next (push8 s.a s)

/-- `PHP`, opcode 08 (R118): P is pushed with bits 5 and 4 set; no flag changes. -/
def execPhp (s : State) : Result :=
  .next (push8 (packP true s.p) s)

/-- `PLA`, opcode 68 (R119): A is pulled; N and Z from it. -/
def execPla (s : State) : Result :=
  let v := pull8 s
  .next ((v.2.setA v.1).setNZ v.1)

/-- `PLP`, opcode 28 (R120): the six flags are pulled; bits 5 and 4 are ignored. -/
def execPlp (s : State) : Result :=
  let v := pull8 s
  .next (v.2.setP (unpackP v.1))

end Sys2Proof.Machine
end

