-- ==== Sys2Proof/Machine/Step.lean ====
section
/-! DEFINITION. The step (R64) put together from the operations of Boundary.lean and `exec`, and the host's way of placing one instruction where the step fetches. -/

namespace Sys2Proof.Machine

/-- `Step()` of R64: reset while RESB is asserted, else an accepted interrupt, else one instruction;
or the reset that cuts the entry or the instruction short (R205). -/
def step (s : State) : Host.Outcome State Fault Refusal :=
  let s0 := sampleLines s
  match s.lines.resb with
  | .low => .next (resetSequence s0)
  | .fallsInside =>
    match resetInside s.lines.irqbLow s0 with
    | .error f => .fault f
    | .ok t => .next t
  | .high =>
    let poll := interruptPoll s.lines.irqbLow s0
    match poll.1 with
    | some e => .next (interruptEntry e poll.2)
    | none =>
      match fetch poll.2 with
      | .error f => .fault f
      | .ok (i, s1) =>
        match exec i s1 with
        | .next t => .next (afterInstr i s1.p.i t)
        | .fault f => .fault f
        | .refused r => .refused r

/-- The state with an instruction's bytes stored where the next step fetches: at pc. The bytes are put
into memory; the rest is changed only where the fetch would not happen or not see them (an interrupt
waiting or scheduled, or a pc outside ram and rom). Log 11. -/
def State.withFetchWord (s : State) (nbits w : Nat) : State :=
  quietNextBoundary
    { s with
      mem := placeBytes (tableBytes nbits w) s.pc s.mem
      cfg := { s.cfg with regions := fetchableRegions s } }

end Sys2Proof.Machine
end

