-- ==== Sys2Proof/WellFormed.lean ====
section
/-! DEFINITION. Which mnemonic has which addressing mode (R94), what operand value a mode can carry (R62, R63), and the check of an assembly form against both. An `Instr` is well-formed when its own form passes: every constructor's does, since every operand value is legal (R67). -/

namespace Sys2Proof

/-- The modes a mnemonic has: the `used by` lists of R81 to R93 turned round (R94). -/
def Mnemonic.modes : Mnemonic → List ModeId
  | .LDA | .AND | .EOR | .ORA | .ADC | .SBC | .CMP =>
    [.immediate, .zeroPage, .zeroPageX, .absolute, .absoluteX, .absoluteY, .indirectX, .indirectY]
  | .LDX =>
    [.immediate, .zeroPage, .zeroPageY, .absolute, .absoluteY]
  | .LDY =>
    [.immediate, .zeroPage, .zeroPageX, .absolute, .absoluteX]
  | .STA =>
    [.zeroPage, .zeroPageX, .absolute, .absoluteX, .absoluteY, .indirectX, .indirectY]
  | .STX =>
    [.zeroPage, .zeroPageY, .absolute]
  | .STY =>
    [.zeroPage, .zeroPageX, .absolute]
  | .TAX | .TAY | .TSX | .TXA | .TXS | .TYA | .PHA | .PHP | .PLA | .PLP | .DEX | .DEY
  | .INX | .INY | .RTS | .CLC | .CLD | .CLI | .CLV | .SEC | .SED | .SEI | .BRK | .NOP
  | .RTI =>
    [.implied]
  | .BIT =>
    [.zeroPage, .absolute]
  | .CPX | .CPY =>
    [.immediate, .zeroPage, .absolute]
  | .DEC | .INC =>
    [.zeroPage, .zeroPageX, .absolute, .absoluteX]
  | .ASL | .LSR | .ROL | .ROR =>
    [.accumulator, .zeroPage, .zeroPageX, .absolute, .absoluteX]
  | .BCC | .BCS | .BEQ | .BMI | .BNE | .BPL | .BVC | .BVS =>
    [.relative]
  | .JMP =>
    [.absolute, .absoluteIndirect]
  | .JSR =>
    [.absolute]

/-- How many bits an operand of a mode has (R62, R63). -/
def ModeId.operandBits : ModeId → Nat
  | .implied | .accumulator => 0
  | .immediate | .zeroPage | .zeroPageX | .zeroPageY | .indirectX | .indirectY | .relative => 8
  | .absolute | .absoluteX | .absoluteY | .absoluteIndirect => 16

/-- A mnemonic, a mode and the encoded operand value, as an assembler would put them together. -/
structure AsmForm where
  mnemonic : Mnemonic
  mode : ModeId
  value : Nat
  deriving DecidableEq, Repr

/-- R94: the pair of mnemonic and mode has an opcode. -/
def AsmForm.pairAssigned (f : AsmForm) : Bool :=
  f.mnemonic.modes.contains f.mode

/-- R62, R63: the operand value fits the operand bytes of the mode (0 where there are none). -/
def AsmForm.valueFits (f : AsmForm) : Bool :=
  decide (f.value < 2 ^ f.mode.operandBits)

/-- The checks of a form. -/
def AsmForm.wellFormed (f : AsmForm) : Bool :=
  f.pairAssigned && f.valueFits

/-- The encoded operand value of a memory mode (R63). -/
def MemMode.value : MemMode → Nat
  | .zp z | .zpX z | .zpY z | .indX z | .indY z => z.toNat
  | .abs w | .absX w | .absY w => w.toNat

/-- The encoded operand value (R63), 0 where the mode has none. -/
def Operand.value : Operand → Nat
  | .implied | .accumulator => 0
  | .immediate v => v.toNat
  | .memory m => m.value
  | .target w | .indirect w => w.toNat
  | .relative d => d.toNat

/-- The form of an instruction. -/
def Instr.form (i : Instr) : AsmForm :=
  { mnemonic := i.mnemonic, mode := i.operand.modeId, value := i.operand.value }

/-- An instruction is well-formed when its form is (R67, R94). -/
def Instr.wellFormed (i : Instr) : Bool :=
  i.form.wellFormed

end Sys2Proof
end

