-- ==== Sys2Proof/Safety.lean ====
section
/-! DEFINITION. The terms claims are made in: what memory holds at an address, what one write does, which addresses are plain memory, the well-formedness of a state, and a run to a stop condition (R233). -/

namespace Sys2Proof.Machine

/-- What memory holds at an address: the model's read of one byte, apart from what a device answers. -/
abbrev State.byteAt (s : State) (a : Addr) : Byte :=
  s.mem.read a.toNat

/-- The address is ram or rom: a read of it has no side effect and gives the stored byte (R48). -/
abbrev State.Plain (s : State) (a : Addr) : Prop :=
  s.kindAt a = .ram ∨ s.kindAt a = .rom

/-- The stack page behaves as ram (R48: what the platform must provide for the stack to work). -/
def State.PageOneRam (s : State) : Prop :=
  ∀ sp : Byte, s.kindAt (stackAddr sp) = .ram

/-- What one write of `v` at `ea` does to memory and to the record of writes outside ram, between `s`
and `t` (R48, U6): every other byte stays; ram takes the byte; elsewhere the write is recorded. -/
def WroteByte (s t : State) (ea : Addr) (v : Byte) : Prop :=
  (∀ b : Addr, b ≠ ea → t.byteAt b = s.byteAt b) ∧
  (s.kindAt ea = .ram → t.byteAt ea = v ∧ t.events = s.events) ∧
  (s.kindAt ea ≠ .ram → t.byteAt ea = s.byteAt ea ∧ t.events = (ea.toNat, v) :: s.events)

/-- The devices' state after a write of `v` at `ea` (R48, U6): a write to ram does not reach them. -/
def State.deviceAfter (s : State) (ea : Addr) (v : Byte) : Nat :=
  if s.kindAt ea = .ram then s.device else Config.deviceAfterWrite s.device s.draws ea.toNat v

/-- What a list of writes does, in the order they are made: to memory, to the record and to the
devices' state. -/
def WroteBytes (s t : State) : List (Addr × Byte) → Prop
  | [] => (∀ b : Addr, t.byteAt b = s.byteAt b) ∧ t.events = s.events ∧ t.device = s.device
  | (ea, v) :: rest => ∃ u : State, u.cfg = s.cfg ∧ u.draws = s.draws ∧
    u.device = s.deviceAfter ea v ∧ WroteByte s u ea v ∧ WroteBytes u t rest

/-- The rows of the opcode table that a mnemonic has: its opcodes with their modes are exactly those of
the list (R65, R94). -/
def HasRows (m : Mnemonic) (rows : List (Byte × ModeId)) : Prop :=
  ∀ i : Instr, i.mnemonic = m ↔ (i.opcode, i.operand.modeId) ∈ rows

/-- The instruction completes, replacing its operand, the accumulator or one byte of memory, by `r` of
it and P by `fl` of it, and changing nothing else but the free values its reads draw and, where it
reaches a device, the devices' state. -/
def ReplacesOperand (i : Instr) (s : State) (r : Byte → Byte) (fl : Byte → Flags) : Prop :=
  (i.operand = .accumulator ∧ exec i s = .next { s with a := r s.a, p := fl s.a }) ∨
  ∃ (m : MemMode) (t : State), i.operand = .memory m ∧ exec i s = .next t ∧
    t = { s with
          p := fl (readOperand (.mem m) s).1, mem := t.mem, events := t.events
          draws := (readOperand (.mem m) s).2.draws
          device := (readOperand (.mem m) s).2.deviceAfter (effAddr m s).1
            (r (readOperand (.mem m) s).1) } ∧
    WroteByte s t (effAddr m s).1 (r (readOperand (.mem m) s).1)

/-- A state is well-formed: memory is in canonical form, and every recorded write is at an address of
the space that is not ram. -/
def State.wf (s : State) : Bool :=
  s.mem.wf &&
    s.events.all fun c => decide (c.1 < 65536) && decide (kindIn s.cfg.regions c.1 ≠ .ram)

/-- The step answers a next state. -/
def State.Safe (s : State) : Prop :=
  ∃ t, step s = .next t

/-- `StopCondition` (R4, R233, D25), OPEN: the environment defines it and a run takes it as an
argument. It may look at the whole state, and a run looks at it at every boundary, before the
fetch. Log 14. -/
abbrev StopCondition := State → Bool

/-- The default `StopCondition` of R4 and R233: pc is a named stop address. Log 14. -/
def atStop (stop : Addr) : StopCondition :=
  fun s => decide (s.pc = stop)

/-- How a run ends (R233). -/
inductive RunEnd where
  /-- At the first boundary where the stop condition holds: the end of a run. -/
  | stopped (s : State)
  /-- The steps allowed were used up before that: no end of a run. -/
  | outOfFuel (s : State)
  /-- In a fault: the run ends as faulted, with no final state. -/
  | fault (f : Fault)
  /-- In a refusal. -/
  | refused (r : Refusal)
  deriving DecidableEq, Repr

/-- A run of at most `fuel` steps to the first boundary where `stop` holds (R233). -/
def runUntil (stop : StopCondition) : Nat → State → RunEnd
  | 0, s => if stop s then .stopped s else .outOfFuel s
  | fuel + 1, s =>
    if stop s then .stopped s
    else
      match step s with
      | .next t => runUntil stop fuel t
      | .fault f => .fault f
      | .refused r => .refused r

/-- `n` steps, or the first stop among them. -/
def runSteps : Nat → State → Result
  | 0, s => .next s
  | n + 1, s =>
    match step s with
    | .next t => runSteps n t
    | .fault f => .fault f
    | .refused r => .refused r

end Sys2Proof.Machine
end

