-- ==== Sys2Proof/Certificates/Slice0/Obligations.lean ====
section
/-! DEFINITION. The statements for the provers, formalised from the numbered rules of spec/. -/

open Sys2Proof Sys2Proof.Machine

/-- LDA, LDX, LDY in every mode: the register takes the operand byte, N and Z come from it, nothing else changes. What accesses outside ram leave of the devices' state is in the model's field device (R48, log 3). -/
def Obligations.LoadsPutTheOperandInOneRegister : Prop :=
  HasRows .LDA [(0xA9#8, .immediate), (0xA5#8, .zeroPage), (0xB5#8, .zeroPageX),
    (0xAD#8, .absolute), (0xBD#8, .absoluteX), (0xB9#8, .absoluteY), (0xA1#8, .indirectX),
    (0xB1#8, .indirectY)] ∧
  HasRows .LDX [(0xA2#8, .immediate), (0xA6#8, .zeroPage), (0xB6#8, .zeroPageY),
    (0xAE#8, .absolute), (0xBE#8, .absoluteY)] ∧
  HasRows .LDY [(0xA0#8, .immediate), (0xA4#8, .zeroPage), (0xB4#8, .zeroPageX),
    (0xAC#8, .absolute), (0xBC#8, .absoluteX)] ∧
  (∀ (i : Instr) (s : State), i.mnemonic = .LDA → ∃ o : Src, i.operand.src? = some o ∧
    exec i s = .next
      { s with
        a := (readOperand o s).1
        p := { s.p with
               n := (readOperand o s).1.getLsbD 7, z := decide ((readOperand o s).1 = 0x00#8) }
        draws := (readOperand o s).2.draws, device := (readOperand o s).2.device }) ∧
  (∀ (i : Instr) (s : State), i.mnemonic = .LDX → ∃ o : Src, i.operand.src? = some o ∧
    exec i s = .next
      { s with
        x := (readOperand o s).1
        p := { s.p with
               n := (readOperand o s).1.getLsbD 7, z := decide ((readOperand o s).1 = 0x00#8) }
        draws := (readOperand o s).2.draws, device := (readOperand o s).2.device }) ∧
  (∀ (i : Instr) (s : State), i.mnemonic = .LDY → ∃ o : Src, i.operand.src? = some o ∧
    exec i s = .next
      { s with
        y := (readOperand o s).1
        p := { s.p with
               n := (readOperand o s).1.getLsbD 7, z := decide ((readOperand o s).1 = 0x00#8) }
        draws := (readOperand o s).2.draws, device := (readOperand o s).2.device })

/-- STA, STX, STY in every mode: the register goes to the effective address, every other byte of memory, every register and every flag stays. What accesses outside ram leave of the devices' state is in the model's field device (R48, log 3). -/
def Obligations.StoresWriteOneByteAtTheEffectiveAddress : Prop :=
  HasRows .STA [(0x85#8, .zeroPage), (0x95#8, .zeroPageX), (0x8D#8, .absolute),
    (0x9D#8, .absoluteX), (0x99#8, .absoluteY), (0x81#8, .indirectX), (0x91#8, .indirectY)] ∧
  HasRows .STX [(0x86#8, .zeroPage), (0x96#8, .zeroPageY), (0x8E#8, .absolute)] ∧
  HasRows .STY [(0x84#8, .zeroPage), (0x94#8, .zeroPageX), (0x8C#8, .absolute)] ∧
  (∀ (i : Instr) (s : State), i.mnemonic = .STA → ∃ (m : MemMode) (t : State),
    i.operand = .memory m ∧ exec i s = .next t ∧
    t = { s with
          mem := t.mem, events := t.events, draws := (effAddr m s).2.draws
          device := (effAddr m s).2.deviceAfter (effAddr m s).1 s.a } ∧
    WroteByte s t (effAddr m s).1 s.a) ∧
  (∀ (i : Instr) (s : State), i.mnemonic = .STX → ∃ (m : MemMode) (t : State),
    i.operand = .memory m ∧ exec i s = .next t ∧
    t = { s with
          mem := t.mem, events := t.events, draws := (effAddr m s).2.draws
          device := (effAddr m s).2.deviceAfter (effAddr m s).1 s.x } ∧
    WroteByte s t (effAddr m s).1 s.x) ∧
  (∀ (i : Instr) (s : State), i.mnemonic = .STY → ∃ (m : MemMode) (t : State),
    i.operand = .memory m ∧ exec i s = .next t ∧
    t = { s with
          mem := t.mem, events := t.events, draws := (effAddr m s).2.draws
          device := (effAddr m s).2.deviceAfter (effAddr m s).1 s.y } ∧
    WroteByte s t (effAddr m s).1 s.y)

/-- The six transfers (R111 to R116); TSX and TXS move the stack pointer S (C1), and TXS alone leaves N and Z. -/
def Obligations.TransfersCopyARegister : Prop :=
  HasRows .TAX [(0xAA#8, .implied)] ∧
  HasRows .TAY [(0xA8#8, .implied)] ∧
  HasRows .TSX [(0xBA#8, .implied)] ∧
  HasRows .TXA [(0x8A#8, .implied)] ∧
  HasRows .TXS [(0x9A#8, .implied)] ∧
  HasRows .TYA [(0x98#8, .implied)] ∧
  (∀ s : State, exec .tax s = .next { s with x := s.a, p := { s.p with n := s.a.getLsbD 7, z := decide (s.a = 0x00#8) } }) ∧
  (∀ s : State, exec .tay s = .next { s with y := s.a, p := { s.p with n := s.a.getLsbD 7, z := decide (s.a = 0x00#8) } }) ∧
  (∀ s : State, exec .tsx s = .next { s with x := s.sp, p := { s.p with n := s.sp.getLsbD 7, z := decide (s.sp = 0x00#8) } }) ∧
  (∀ s : State, exec .txa s = .next { s with a := s.x, p := { s.p with n := s.x.getLsbD 7, z := decide (s.x = 0x00#8) } }) ∧
  (∀ s : State, exec .txs s = .next { s with sp := s.x }) ∧
  (∀ s : State, exec .tya s = .next { s with a := s.y, p := { s.p with n := s.y.getLsbD 7, z := decide (s.y = 0x00#8) } })

/-- PHA and PHP (R117, R118): one byte at 0x0100 + S, S one less modulo 256, no flag. PHP pushes bits 5 and 4 as 1. What accesses outside ram leave of the devices' state is in the model's field device (R48, log 3). -/
def Obligations.PushesWriteAtTheStackPointer : Prop :=
  HasRows .PHA [(0x48#8, .implied)] ∧
  HasRows .PHP [(0x08#8, .implied)] ∧
  (∀ s : State, ∃ t : State, exec .pha s = .next t ∧
    t = { s with
          mem := t.mem, events := t.events, sp := s.sp - 1#8
          device := s.deviceAfter (stackAddr s.sp) s.a } ∧
    WroteByte s t (stackAddr s.sp) s.a) ∧
  (∀ s : State, ∃ (t : State) (v : Byte), exec .php s = .next t ∧
    v = BitVec.ofNat 8 (bit s.p.n * 128 + bit s.p.v * 64 + 0x30 + bit s.p.d * 8 + bit s.p.i * 4 +
      bit s.p.z * 2 + bit s.p.c) ∧
    t = { s with
          mem := t.mem, events := t.events, sp := s.sp - 1#8
          device := s.deviceAfter (stackAddr s.sp) v } ∧
    WroteByte s t (stackAddr s.sp) v)

/-- PLA and PLP (R119, R120): S one more modulo 256, the byte read at 0x0100 + S. PLP loads six flags and ignores bits 5 and 4. What accesses outside ram leave of the devices' state is in the model's field device (R48, log 3). -/
def Obligations.PullsReadAboveTheStackPointer : Prop :=
  HasRows .PLA [(0x68#8, .implied)] ∧
  HasRows .PLP [(0x28#8, .implied)] ∧
  (∀ s : State, exec .pla s = .next
    { s with
      a := s.peek (stackAddr (s.sp + 1#8)), sp := s.sp + 1#8
      p := { s.p with
             n := (s.peek (stackAddr (s.sp + 1#8))).getLsbD 7
             z := decide (s.peek (stackAddr (s.sp + 1#8)) = 0x00#8) }
      draws := (s.touch (stackAddr (s.sp + 1#8))).draws
      device := (s.touch (stackAddr (s.sp + 1#8))).device }) ∧
  (∀ (s : State) (v : Byte), v = s.peek (stackAddr (s.sp + 1#8)) → exec .plp s = .next
    { s with
      sp := s.sp + 1#8
      p := { n := v.getLsbD 7, v := v.getLsbD 6, d := v.getLsbD 3, i := v.getLsbD 2
             z := v.getLsbD 1, c := v.getLsbD 0 }
      draws := (s.touch (stackAddr (s.sp + 1#8))).draws
      device := (s.touch (stackAddr (s.sp + 1#8))).device })

/-- On a stack in ram PLA after PHA gives A back, whatever happened to A between; PLP after PHP gives the six flags back. -/
def Obligations.PullUndoesPush : Prop :=
  (∀ (s t u : State) (v : Byte), s.PageOneRam → exec .pha s = .next t →
    exec .pla { t with a := v } = .next u → u.a = s.a ∧ u.sp = s.sp ∧ u.mem = t.mem) ∧
  (∀ (s t u : State) (p : Flags), s.PageOneRam → exec .php s = .next t →
    exec .plp { t with p := p } = .next u → u.p = s.p ∧ u.sp = s.sp ∧ u.mem = t.mem)

/-- AND, EOR, ORA in every mode (R126 to R128). What accesses outside ram leave of the devices' state is in the model's field device (R48, log 3). -/
def Obligations.LogicalInstructionsCombineAWithTheOperand : Prop :=
  HasRows .AND [(0x29#8, .immediate), (0x25#8, .zeroPage), (0x35#8, .zeroPageX),
    (0x2D#8, .absolute), (0x3D#8, .absoluteX), (0x39#8, .absoluteY), (0x21#8, .indirectX),
    (0x31#8, .indirectY)] ∧
  HasRows .EOR [(0x49#8, .immediate), (0x45#8, .zeroPage), (0x55#8, .zeroPageX),
    (0x4D#8, .absolute), (0x5D#8, .absoluteX), (0x59#8, .absoluteY), (0x41#8, .indirectX),
    (0x51#8, .indirectY)] ∧
  HasRows .ORA [(0x09#8, .immediate), (0x05#8, .zeroPage), (0x15#8, .zeroPageX),
    (0x0D#8, .absolute), (0x1D#8, .absoluteX), (0x19#8, .absoluteY), (0x01#8, .indirectX),
    (0x11#8, .indirectY)] ∧
  (∀ (i : Instr) (s : State), i.mnemonic = .AND → ∃ (o : Src) (r : Byte),
    i.operand.src? = some o ∧ r = s.a &&& (readOperand o s).1 ∧
    exec i s = .next
      { s with
        a := r, p := { s.p with n := r.getLsbD 7, z := decide (r = 0x00#8) }
        draws := (readOperand o s).2.draws, device := (readOperand o s).2.device }) ∧
  (∀ (i : Instr) (s : State), i.mnemonic = .EOR → ∃ (o : Src) (r : Byte),
    i.operand.src? = some o ∧ r = s.a ^^^ (readOperand o s).1 ∧
    exec i s = .next
      { s with
        a := r, p := { s.p with n := r.getLsbD 7, z := decide (r = 0x00#8) }
        draws := (readOperand o s).2.draws, device := (readOperand o s).2.device }) ∧
  (∀ (i : Instr) (s : State), i.mnemonic = .ORA → ∃ (o : Src) (r : Byte),
    i.operand.src? = some o ∧ r = s.a ||| (readOperand o s).1 ∧
    exec i s = .next
      { s with
        a := r, p := { s.p with n := r.getLsbD 7, z := decide (r = 0x00#8) }
        draws := (readOperand o s).2.draws, device := (readOperand o s).2.device })

/-- BIT (R129): Z from A AND M, N and V from bits 7 and 6 of M. What accesses outside ram leave of the devices' state is in the model's field device (R48, log 3). -/
def Obligations.BitTestsWithoutChangingA : Prop :=
  HasRows .BIT [(0x24#8, .zeroPage), (0x2C#8, .absolute)] ∧
  (∀ (i : Instr) (s : State), i.mnemonic = .BIT → ∃ (m : MemMode) (v : Byte),
    i.operand = .memory m ∧ v = (readOperand (.mem m) s).1 ∧
    exec i s = .next
      { s with
        p := { s.p with z := decide (s.a &&& v = 0x00#8), n := v.getLsbD 7, v := v.getLsbD 6 }
        draws := (readOperand (.mem m) s).2.draws, device := (readOperand (.mem m) s).2.device })

/-- ADC in every mode (R131): binary with D = 0, with V as the signed range of R130; the digit algorithm with D = 1; the refusal under DecimalPolicy = refuse. What accesses outside ram leave of the devices' state is in the model's field device (R48, log 3). -/
def Obligations.AdcAddsWithCarry : Prop :=
  HasRows .ADC [(0x69#8, .immediate), (0x65#8, .zeroPage), (0x75#8, .zeroPageX),
    (0x6D#8, .absolute), (0x7D#8, .absoluteX), (0x79#8, .absoluteY), (0x61#8, .indirectX),
    (0x71#8, .indirectY)] ∧
  (∀ (i : Instr) (s : State), i.mnemonic = .ADC → ∃ (o : Src) (m r : Byte),
    i.operand.src? = some o ∧ m = (readOperand o s).1 ∧
    r = BitVec.ofNat 8 (s.a.toNat + m.toNat + bit s.p.c) ∧
    (s.p.d = false → exec i s = .next
      { s with
        a := r
        p := { s.p with
               n := r.getLsbD 7, z := decide (r = 0x00#8)
               c := decide (s.a.toNat + m.toNat + bit s.p.c > 255)
               v := decide (s.a.toInt + m.toInt + (bit s.p.c : Nat) < -128 ∨
                      127 < s.a.toInt + m.toInt + (bit s.p.c : Nat)) }
        draws := (readOperand o s).2.draws, device := (readOperand o s).2.device }) ∧
    (s.p.d = true → s.cfg.decimalPolicy = .nmosAlgorithm → exec i s = .next
      { s with
        a := (adcDecimal s.a m s.p.c).value
        p := { s.p with
               n := (adcDecimal s.a m s.p.c).n, v := (adcDecimal s.a m s.p.c).v
               z := (adcDecimal s.a m s.p.c).z, c := (adcDecimal s.a m s.p.c).c }
        draws := (readOperand o s).2.draws, device := (readOperand o s).2.device }) ∧
    (s.p.d = true → s.cfg.decimalPolicy = .refuse → exec i s = .refused .decimal))

/-- SBC in every mode (R132): A - M - (1 - C) with D = 0, C the inverted borrow; the digit algorithm with D = 1; the refusal under DecimalPolicy = refuse. What accesses outside ram leave of the devices' state is in the model's field device (R48, log 3). -/
def Obligations.SbcSubtractsWithBorrow : Prop :=
  HasRows .SBC [(0xE9#8, .immediate), (0xE5#8, .zeroPage), (0xF5#8, .zeroPageX),
    (0xED#8, .absolute), (0xFD#8, .absoluteX), (0xF9#8, .absoluteY), (0xE1#8, .indirectX),
    (0xF1#8, .indirectY)] ∧
  (∀ (i : Instr) (s : State), i.mnemonic = .SBC → ∃ (o : Src) (m r : Byte) (d : Int),
    i.operand.src? = some o ∧ m = (readOperand o s).1 ∧
    d = (s.a.toNat : Int) - (m.toNat : Int) - (1 - (bit s.p.c : Nat)) ∧ r = BitVec.ofInt 8 d ∧
    (s.p.d = false → exec i s = .next
      { s with
        a := r
        p := { s.p with
               n := r.getLsbD 7, z := decide (r = 0x00#8), c := decide (0 ≤ d)
               v := decide (s.a.toInt - m.toInt - (1 - (bit s.p.c : Nat)) < -128 ∨
                      127 < s.a.toInt - m.toInt - (1 - (bit s.p.c : Nat))) }
        draws := (readOperand o s).2.draws, device := (readOperand o s).2.device }) ∧
    (s.p.d = true → s.cfg.decimalPolicy = .nmosAlgorithm → exec i s = .next
      { s with
        a := (sbcDecimal s.a m s.p.c).value
        p := { s.p with
               n := (sbcDecimal s.a m s.p.c).n, v := (sbcDecimal s.a m s.p.c).v
               z := (sbcDecimal s.a m s.p.c).z, c := (sbcDecimal s.a m s.p.c).c }
        draws := (readOperand o s).2.draws, device := (readOperand o s).2.device }) ∧
    (s.p.d = true → s.cfg.decimalPolicy = .refuse → exec i s = .refused .decimal))

/-- R133, AdcDecimal, in plain arithmetic. For all inputs, digits above 9 included: lo and hi are the two digit sums, d the corrected low digit; C when hi is 10 or more; N and V look at bit 3 of hi, before the correction of the high digit; Z is that of the binary sum. On valid digits A is the two-digit decimal sum modulo 100, and C is set when it is 100 or more. -/
def Obligations.AdcDecimalAddsValidDigits : Prop :=
  (∀ (a m : Byte) (c : Bool), ∃ lo d hi : Nat, lo = a.toNat % 16 + m.toNat % 16 + bit c ∧
    d = (if 10 ≤ lo then (lo + 6) % 16 else lo) ∧
    hi = a.toNat / 16 + m.toNat / 16 + (if 10 ≤ lo then 1 else 0) ∧
    (adcDecimal a m c).value.toNat = (if 10 ≤ hi then hi + 6 else hi) % 16 * 16 + d ∧
    (adcDecimal a m c).c = decide (10 ≤ hi) ∧ (adcDecimal a m c).n = decide (8 ≤ hi % 16) ∧
    (adcDecimal a m c).v =
      decide ((128 ≤ a.toNat ↔ 128 ≤ m.toNat) ∧ ¬(128 ≤ a.toNat ↔ 8 ≤ hi % 16)) ∧
    (adcDecimal a m c).z = decide ((a.toNat + m.toNat + bit c) % 256 = 0)) ∧
  (∀ (a m : Byte) (c : Bool), a.toNat % 16 ≤ 9 → a.toNat / 16 ≤ 9 → m.toNat % 16 ≤ 9 →
    m.toNat / 16 ≤ 9 → ∃ sum : Nat,
    sum = (10 * (a.toNat / 16) + a.toNat % 16) + (10 * (m.toNat / 16) + m.toNat % 16) + bit c ∧
    (adcDecimal a m c).value.toNat = sum % 100 / 10 * 16 + sum % 10 ∧
    (adcDecimal a m c).c = decide (sum ≥ 100))

/-- R134, SbcDecimal, in plain arithmetic. For all inputs, digits above 9 included: lo and hi are the two digit differences, d the corrected low digit; the four flags are those of the binary subtraction. On valid digits A is the decimal difference modulo 100, and C = 0 exactly on a borrow. -/
def Obligations.SbcDecimalSubtractsValidDigits : Prop :=
  (∀ (a m : Byte) (c : Bool), ∃ lo d hi : Int,
    lo = (a.toNat % 16 : Nat) - (m.toNat % 16 : Nat) - (1 - (bit c : Nat)) ∧
    d = (if lo < 0 then (lo - 6) % 16 else lo) ∧
    hi = (a.toNat / 16 : Nat) - (m.toNat / 16 : Nat) - (if lo < 0 then 1 else 0) ∧
    ((sbcDecimal a m c).value.toNat : Int) = (if hi < 0 then hi - 6 else hi) % 16 * 16 + d) ∧
  (∀ (a m : Byte) (c : Bool), ∃ (diff : Int) (r : Byte),
    diff = (a.toNat : Int) - (m.toNat : Int) - (1 - (bit c : Nat)) ∧ r = BitVec.ofInt 8 diff ∧
    (sbcDecimal a m c).n = r.getLsbD 7 ∧ (sbcDecimal a m c).z = decide (r = 0x00#8) ∧
    (sbcDecimal a m c).c = decide (0 ≤ diff) ∧
    (sbcDecimal a m c).v = decide (a.toInt - m.toInt - (1 - (bit c : Nat)) < -128 ∨
      127 < a.toInt - m.toInt - (1 - (bit c : Nat))) ∧
    (sbcDecimal a m c).n = (subBinary a m c).n ∧ (sbcDecimal a m c).v = (subBinary a m c).v ∧
    (sbcDecimal a m c).z = (subBinary a m c).z ∧ (sbcDecimal a m c).c = (subBinary a m c).c) ∧
  (∀ (a m : Byte) (c : Bool), a.toNat % 16 ≤ 9 → a.toNat / 16 ≤ 9 → m.toNat % 16 ≤ 9 →
    m.toNat / 16 ≤ 9 → ∃ d : Int,
    d = ((10 * (a.toNat / 16) + a.toNat % 16 : Nat) : Int) -
      ((10 * (m.toNat / 16) + m.toNat % 16 : Nat) : Int) - (1 - (bit c : Nat)) ∧
    ((sbcDecimal a m c).value.toNat : Int) = d % 100 / 10 * 16 + d % 10 ∧
    (sbcDecimal a m c).c = decide (0 ≤ d))

/-- The binary adder and subtracter of R130, which ADC and SBC use with D = 0: two of them chained through C are one on 16 bits. -/
def Obligations.CarryChainsSixteenBitArithmetic : Prop :=
  ∀ (v w : Addr) (c : Bool),
    (∃ lo hi : AluResult, lo = addBinary (lowByte v) (lowByte w) c ∧
      hi = addBinary (highByte v) (highByte w) lo.c ∧
      joinBytes hi.value lo.value = v + w + BitVec.ofNat 16 (bit c) ∧
      hi.c = decide (v.toNat + w.toNat + bit c > 0xFFFF)) ∧
    (∃ lo hi : AluResult, lo = subBinary (lowByte v) (lowByte w) c ∧
      hi = subBinary (highByte v) (highByte w) lo.c ∧
      joinBytes hi.value lo.value = v - w - BitVec.ofNat 16 (1 - bit c) ∧
      hi.c = decide (v.toNat ≥ w.toNat + (1 - bit c)))

/-- CMP, CPX, CPY in every mode (R135 to R138): N, Z, C of the difference; register, V, D, I stay. What accesses outside ram leave of the devices' state is in the model's field device (R48, log 3). -/
def Obligations.ComparesKeepOnlyFlags : Prop :=
  HasRows .CMP [(0xC9#8, .immediate), (0xC5#8, .zeroPage), (0xD5#8, .zeroPageX),
    (0xCD#8, .absolute), (0xDD#8, .absoluteX), (0xD9#8, .absoluteY), (0xC1#8, .indirectX),
    (0xD1#8, .indirectY)] ∧
  HasRows .CPX [(0xE0#8, .immediate), (0xE4#8, .zeroPage), (0xEC#8, .absolute)] ∧
  HasRows .CPY [(0xC0#8, .immediate), (0xC4#8, .zeroPage), (0xCC#8, .absolute)] ∧
  (∀ (i : Instr) (s : State), i.mnemonic = .CMP → ∃ (o : Src) (m : Byte),
    i.operand.src? = some o ∧ m = (readOperand o s).1 ∧
    exec i s = .next
      { s with
        p := { s.p with
               c := decide (m.toNat ≤ s.a.toNat), z := decide (s.a = m)
               n := decide (128 ≤ ((s.a.toNat : Int) - (m.toNat : Int)) % 256) }
        draws := (readOperand o s).2.draws, device := (readOperand o s).2.device }) ∧
  (∀ (i : Instr) (s : State), i.mnemonic = .CPX → ∃ (o : Src) (m : Byte),
    i.operand.src? = some o ∧ m = (readOperand o s).1 ∧
    exec i s = .next
      { s with
        p := { s.p with
               c := decide (m.toNat ≤ s.x.toNat), z := decide (s.x = m)
               n := decide (128 ≤ ((s.x.toNat : Int) - (m.toNat : Int)) % 256) }
        draws := (readOperand o s).2.draws, device := (readOperand o s).2.device }) ∧
  (∀ (i : Instr) (s : State), i.mnemonic = .CPY → ∃ (o : Src) (m : Byte),
    i.operand.src? = some o ∧ m = (readOperand o s).1 ∧
    exec i s = .next
      { s with
        p := { s.p with
               c := decide (m.toNat ≤ s.y.toNat), z := decide (s.y = m)
               n := decide (128 ≤ ((s.y.toNat : Int) - (m.toNat : Int)) % 256) }
        draws := (readOperand o s).2.draws, device := (readOperand o s).2.device })

/-- INC and DEC in every mode (R141, R144): one byte of memory by one modulo 256, N and Z of the result, C and V untouched. What accesses outside ram leave of the devices' state is in the model's field device (R48, log 3). -/
def Obligations.IncAndDecReplaceAMemoryByte : Prop :=
  HasRows .DEC [(0xC6#8, .zeroPage), (0xD6#8, .zeroPageX), (0xCE#8, .absolute),
    (0xDE#8, .absoluteX)] ∧
  HasRows .INC [(0xE6#8, .zeroPage), (0xF6#8, .zeroPageX), (0xEE#8, .absolute),
    (0xFE#8, .absoluteX)] ∧
  (∀ (i : Instr) (s : State), i.mnemonic = .DEC → ReplacesOperand i s
    (fun v => BitVec.ofNat 8 (v.toNat + 255))
    (fun v => { s.p with
                n := (BitVec.ofNat 8 (v.toNat + 255)).getLsbD 7
                z := decide (BitVec.ofNat 8 (v.toNat + 255) = 0x00#8) })) ∧
  (∀ (i : Instr) (s : State), i.mnemonic = .INC → ReplacesOperand i s
    (fun v => BitVec.ofNat 8 (v.toNat + 1))
    (fun v => { s.p with
                n := (BitVec.ofNat 8 (v.toNat + 1)).getLsbD 7
                z := decide (BitVec.ofNat 8 (v.toNat + 1) = 0x00#8) }))

/-- DEX, DEY, INX, INY (R142, R143, R145, R146). -/
def Obligations.IndexRegistersCountByOne : Prop :=
  HasRows .DEX [(0xCA#8, .implied)] ∧
  HasRows .DEY [(0x88#8, .implied)] ∧
  HasRows .INX [(0xE8#8, .implied)] ∧
  HasRows .INY [(0xC8#8, .implied)] ∧
  (∀ s : State, exec .dex s = .next
    { s with
      x := s.x - 1#8
      p := { s.p with n := (s.x - 1#8).getLsbD 7, z := decide (s.x - 1#8 = 0x00#8) } }) ∧
  (∀ s : State, exec .dey s = .next
    { s with
      y := s.y - 1#8
      p := { s.p with n := (s.y - 1#8).getLsbD 7, z := decide (s.y - 1#8 = 0x00#8) } }) ∧
  (∀ s : State, exec .inx s = .next
    { s with
      x := s.x + 1#8
      p := { s.p with n := (s.x + 1#8).getLsbD 7, z := decide (s.x + 1#8 = 0x00#8) } }) ∧
  (∀ s : State, exec .iny s = .next
    { s with
      y := s.y + 1#8
      p := { s.p with n := (s.y + 1#8).getLsbD 7, z := decide (s.y + 1#8 = 0x00#8) } })

/-- ASL, LSR, ROL, ROR on the accumulator and in every memory mode (R151 to R154). What accesses outside ram leave of the devices' state is in the model's field device (R48, log 3). -/
def Obligations.ShiftsAndRotatesMoveOneBit : Prop :=
  HasRows .ASL [(0x0A#8, .accumulator), (0x06#8, .zeroPage), (0x16#8, .zeroPageX),
    (0x0E#8, .absolute), (0x1E#8, .absoluteX)] ∧
  HasRows .LSR [(0x4A#8, .accumulator), (0x46#8, .zeroPage), (0x56#8, .zeroPageX),
    (0x4E#8, .absolute), (0x5E#8, .absoluteX)] ∧
  HasRows .ROL [(0x2A#8, .accumulator), (0x26#8, .zeroPage), (0x36#8, .zeroPageX),
    (0x2E#8, .absolute), (0x3E#8, .absoluteX)] ∧
  HasRows .ROR [(0x6A#8, .accumulator), (0x66#8, .zeroPage), (0x76#8, .zeroPageX),
    (0x6E#8, .absolute), (0x7E#8, .absoluteX)] ∧
  (∀ (i : Instr) (s : State), i.mnemonic = .ASL → ReplacesOperand i s
    (fun v => BitVec.ofNat 8 (v.toNat * 2))
    (fun v => { s.p with
                c := v.getLsbD 7
                n := (BitVec.ofNat 8 (v.toNat * 2)).getLsbD 7
                z := decide (BitVec.ofNat 8 (v.toNat * 2) = 0x00#8) })) ∧
  (∀ (i : Instr) (s : State), i.mnemonic = .LSR → ReplacesOperand i s
    (fun v => BitVec.ofNat 8 (v.toNat / 2))
    (fun v => { s.p with
                c := v.getLsbD 0
                n := (BitVec.ofNat 8 (v.toNat / 2)).getLsbD 7
                z := decide (BitVec.ofNat 8 (v.toNat / 2) = 0x00#8) })) ∧
  (∀ (i : Instr) (s : State), i.mnemonic = .ROL → ReplacesOperand i s
    (fun v => BitVec.ofNat 8 (v.toNat * 2 + bit s.p.c))
    (fun v => { s.p with
                c := v.getLsbD 7
                n := (BitVec.ofNat 8 (v.toNat * 2 + bit s.p.c)).getLsbD 7
                z := decide (BitVec.ofNat 8 (v.toNat * 2 + bit s.p.c) = 0x00#8) })) ∧
  (∀ (i : Instr) (s : State), i.mnemonic = .ROR → ReplacesOperand i s
    (fun v => BitVec.ofNat 8 (v.toNat / 2 + 128 * bit s.p.c))
    (fun v => { s.p with
                c := v.getLsbD 0
                n := (BitVec.ofNat 8 (v.toNat / 2 + 128 * bit s.p.c)).getLsbD 7
                z := decide (BitVec.ofNat 8 (v.toNat / 2 + 128 * bit s.p.c) = 0x00#8) })) ∧
  (∀ (i : Instr) (s t : State), i.mnemonic = .LSR → exec i s = .next t → t.p.n = false)

/-- R153: nine ROLs restore byte and carry; so do nine RORs. -/
def Obligations.NineRolsRestoreByteAndCarry : Prop :=
  ∀ s : State,
    (∃ t, ((fun u : Result => match u with
        | .next x => exec .rolAcc x
        | stop => stop)^[9]) (.next s) = .next t ∧ t.a = s.a ∧ t.p.c = s.p.c) ∧
    (∃ t, ((fun u : Result => match u with
        | .next x => exec .rorAcc x
        | stop => stop)^[9]) (.next s) = .next t ∧ t.a = s.a ∧ t.p.c = s.p.c)

/-- The eight branches (R160 to R168): pc, which holds the address after the branch, plus the signed displacement modulo 65536 when the condition holds; nothing else changes. -/
def Obligations.BranchesAddASignedDisplacement : Prop :=
  HasRows .BCC [(0x90#8, .relative)] ∧
  HasRows .BCS [(0xB0#8, .relative)] ∧
  HasRows .BEQ [(0xF0#8, .relative)] ∧
  HasRows .BMI [(0x30#8, .relative)] ∧
  HasRows .BNE [(0xD0#8, .relative)] ∧
  HasRows .BPL [(0x10#8, .relative)] ∧
  HasRows .BVC [(0x50#8, .relative)] ∧
  HasRows .BVS [(0x70#8, .relative)] ∧
  (∀ (d : Byte) (s : State), exec (.bcc d) s = .next
    (if s.p.c = false then { s with pc := BitVec.ofInt 16 ((s.pc.toNat : Int) + d.toInt) } else s)) ∧
  (∀ (d : Byte) (s : State), exec (.bcs d) s = .next
    (if s.p.c = true then { s with pc := BitVec.ofInt 16 ((s.pc.toNat : Int) + d.toInt) } else s)) ∧
  (∀ (d : Byte) (s : State), exec (.beq d) s = .next
    (if s.p.z = true then { s with pc := BitVec.ofInt 16 ((s.pc.toNat : Int) + d.toInt) } else s)) ∧
  (∀ (d : Byte) (s : State), exec (.bmi d) s = .next
    (if s.p.n = true then { s with pc := BitVec.ofInt 16 ((s.pc.toNat : Int) + d.toInt) } else s)) ∧
  (∀ (d : Byte) (s : State), exec (.bne d) s = .next
    (if s.p.z = false then { s with pc := BitVec.ofInt 16 ((s.pc.toNat : Int) + d.toInt) } else s)) ∧
  (∀ (d : Byte) (s : State), exec (.bpl d) s = .next
    (if s.p.n = false then { s with pc := BitVec.ofInt 16 ((s.pc.toNat : Int) + d.toInt) } else s)) ∧
  (∀ (d : Byte) (s : State), exec (.bvc d) s = .next
    (if s.p.v = false then { s with pc := BitVec.ofInt 16 ((s.pc.toNat : Int) + d.toInt) } else s)) ∧
  (∀ (d : Byte) (s : State), exec (.bvs d) s = .next
    (if s.p.v = true then { s with pc := BitVec.ofInt 16 ((s.pc.toNat : Int) + d.toInt) } else s))

/-- JMP (R169): absolute, and indirect with the high byte of the target from the page of the pointer. What accesses outside ram leave of the devices' state is in the model's field device (R48, log 3). -/
def Obligations.JumpsLoadThePc : Prop :=
  HasRows .JMP [(0x4C#8, .absolute), (0x6C#8, .absoluteIndirect)] ∧
  (∀ (w : Addr) (s : State), exec (.jmpAbs w) s = .next { s with pc := w }) ∧
  (∀ (w : Addr) (s : State), ∃ second : Addr,
    second.toNat = w.toNat / 256 * 256 + (w.toNat + 1) % 256 ∧
    exec (.jmpInd w) s = .next
      { s with
        pc := joinBytes ((s.touch w).peek second) (s.peek w)
        draws := ((s.touch w).touch second).draws, device := ((s.touch w).touch second).device })

/-- JSR (R170): the address of its third byte is pushed high byte first and pc takes the target; a JSR whose bytes its pushes address sets the flag of U9 (the model's own, log 7). What accesses outside ram leave of the devices' state is in the model's field device (R48, log 3). -/
def Obligations.JsrPushesItsLastByteAddress : Prop :=
  HasRows .JSR [(0x20#8, .absolute)] ∧
  (∀ (w : Addr) (s : State), ∃ t : State, exec (.jsr w) s = .next t ∧
    t = { s with
          mem := t.mem, events := t.events, sp := s.sp - 2#8, pc := w
          jsrOverlap := t.jsrOverlap, device := t.device } ∧
    WroteBytes s t
      [(stackAddr s.sp, highByte (s.pc - 1#16)), (stackAddr (s.sp - 1#8), lowByte (s.pc - 1#16))] ∧
    (t.jsrOverlap = true ↔ s.jsrOverlap = true ∨ ∃ k ∈ [1#16, 2#16, 3#16],
      s.pc - k = stackAddr s.sp ∨ s.pc - k = stackAddr (s.sp - 1#8)))

/-- RTS (R171): two bytes pulled low first, plus 1. What accesses outside ram leave of the devices' state is in the model's field device (R48, log 3). -/
def Obligations.RtsReturnsPastThePulledAddress : Prop :=
  HasRows .RTS [(0x60#8, .implied)] ∧
  (∀ s : State, exec .rts s = .next
    { s with
      sp := s.sp + 2#8, pc := (pull16 s).1 + 1#16
      draws := (pull16 s).2.draws, device := (pull16 s).2.device }) ∧
  (∀ s : State, s.Plain (stackAddr (s.sp + 1#8)) → s.Plain (stackAddr (s.sp + 2#8)) →
    exec .rts s = .next
      { s with
        sp := s.sp + 2#8
        pc := joinBytes (s.byteAt (stackAddr (s.sp + 2#8))) (s.byteAt (stackAddr (s.sp + 1#8))) +
          1#16 })

/-- On a stack in ram a JSR and an RTS come back to the instruction after the JSR, with S as it was; of memory only the two stack bytes can differ. -/
def Obligations.RtsUndoesJsr : Prop :=
  ∀ (w target : Addr) (s t u : State), s.PageOneRam → exec (.jsr target) s = .next t →
    exec .rts { t with pc := w } = .next u →
    u = { s with pc := s.pc, mem := t.mem, jsrOverlap := t.jsrOverlap } ∧
    ∀ b : Addr, (∀ k ∈ [0#8, 1#8], b ≠ stackAddr (s.sp - k)) → u.byteAt b = s.byteAt b

/-- The seven flag instructions (R176 to R182). When the next poll sees what CLI and SEI did to I, on which R178 and R182 remark, is stated in IPollLagsOneInstruction (R211). -/
def Obligations.FlagInstructionsWriteOneFlag : Prop :=
  HasRows .CLC [(0x18#8, .implied)] ∧
  HasRows .CLD [(0xD8#8, .implied)] ∧
  HasRows .CLI [(0x58#8, .implied)] ∧
  HasRows .CLV [(0xB8#8, .implied)] ∧
  HasRows .SEC [(0x38#8, .implied)] ∧
  HasRows .SED [(0xF8#8, .implied)] ∧
  HasRows .SEI [(0x78#8, .implied)] ∧
  (∀ s : State, exec .clc s = .next { s with p := { s.p with c := false } }) ∧
  (∀ s : State, exec .cld s = .next { s with p := { s.p with d := false } }) ∧
  (∀ s : State, exec .cli s = .next { s with p := { s.p with i := false } }) ∧
  (∀ s : State, exec .clv s = .next { s with p := { s.p with v := false } }) ∧
  (∀ s : State, exec .sec s = .next { s with p := { s.p with c := true } }) ∧
  (∀ s : State, exec .sed s = .next { s with p := { s.p with d := true } }) ∧
  (∀ s : State, exec .sei s = .next { s with p := { s.p with i := true } })

/-- BRK (R185): pc + 1 (its address + 2) and P with B = 1 pushed, I set, D kept, pc from 0xFFFE/F. What accesses outside ram leave of the devices' state is in the model's field device (R48, log 3). -/
def Obligations.BrkEntersTheHandler : Prop :=
  HasRows .BRK [(0x00#8, .implied)] ∧
  (∀ s : State, ∃ t u : State, exec .brk s = .next t ∧
    u = { s with mem := u.mem, events := u.events, device := u.device, sp := s.sp - 3#8 } ∧
    WroteBytes s u
      [(stackAddr s.sp, highByte (s.pc + 1#16)), (stackAddr (s.sp - 1#8), lowByte (s.pc + 1#16)),
       (stackAddr (s.sp - 2#8), packP true s.p)] ∧
    t = { u with
          p := { s.p with i := true }, pc := (read16 0xFFFE#16 u).1
          draws := (read16 0xFFFE#16 u).2.draws, device := (read16 0xFFFE#16 u).2.device } ∧
    (s.Plain 0xFFFE#16 → s.Plain 0xFFFF#16 →
      t.pc = joinBytes (s.byteAt 0xFFFF#16) (s.byteAt 0xFFFE#16)))

/-- NOP (R186). -/
def Obligations.NopOnlyTakesItsPlace : Prop :=
  HasRows .NOP [(0xEA#8, .implied)] ∧
  ∀ s : State, exec .nop s = .next s

/-- RTI (R187): P, then pc low byte first, with no +1. What accesses outside ram leave of the devices' state is in the model's field device (R48, log 3). -/
def Obligations.RtiRestoresPAndPc : Prop :=
  HasRows .RTI [(0x40#8, .implied)] ∧
  (∀ s : State, exec .rti s = .next
    { s with
      sp := s.sp + 3#8, p := unpackP (pull8 s).1, pc := (pull16 (pull8 s).2).1
      draws := (pull16 (pull8 s).2).2.draws, device := (pull16 (pull8 s).2).2.device }) ∧
  (∀ (s : State) (v : Byte), v = s.byteAt (stackAddr (s.sp + 1#8)) →
    (∀ k ∈ [1#8, 2#8, 3#8], s.Plain (stackAddr (s.sp + k))) → exec .rti s = .next
    { s with
      sp := s.sp + 3#8
      p := { n := v.getLsbD 7, v := v.getLsbD 6, d := v.getLsbD 3, i := v.getLsbD 2
             z := v.getLsbD 1, c := v.getLsbD 0 }
      pc := joinBytes (s.byteAt (stackAddr (s.sp + 3#8))) (s.byteAt (stackAddr (s.sp + 2#8))) })

/-- On a stack in ram RTI after BRK comes back to BRK + 2 with the six flags as they were; of memory only the three stack bytes can differ. A vector outside ram and rom can draw a free value and change the devices (t.draws, t.device). -/
def Obligations.RtiUndoesBrk : Prop :=
  ∀ (w : Addr) (p : Flags) (s t u : State), s.PageOneRam → exec .brk s = .next t →
    exec .rti { t with pc := w, p := p } = .next u →
    u = { s with pc := s.pc + 1#16, mem := t.mem, draws := t.draws, device := t.device } ∧
    ∀ b : Addr, (∀ k ∈ [0#8, 1#8, 2#8], b ≠ stackAddr (s.sp - k)) → u.byteAt b = s.byteAt b

/-- R207 as a step: an accepted NMI or IRQ pushes pc and P with B = 0, sets I, keeps D, and takes its own vector; an NMI clears nmi_pending. What accesses outside ram leave of the devices' state is in the model's field device (R48, log 3). -/
def Obligations.AcceptedInterruptsEnterTheirHandler : Prop :=
  ∀ (s s0 : State) (e : Event), s.lines.resb = .high →
    interruptPoll s.lines.irqbLow (sampleLines s) = (some e, s0) →
    ∃ (t u : State) (vector : Addr),
    vector = (match e with
      | .nmi => 0xFFFA#16
      | .irq => 0xFFFE#16) ∧
    step s = .next t ∧
    u = { s0 with
          mem := u.mem, events := u.events, device := u.device, sp := s.sp - 3#8
          nmiPending := (match e with
            | .nmi => false
            | .irq => s0.nmiPending) } ∧
    WroteBytes s0 u
      [(stackAddr s.sp, highByte s.pc), (stackAddr (s.sp - 1#8), lowByte s.pc),
       (stackAddr (s.sp - 2#8), packP false s.p)] ∧
    t = { u with
          p := { s.p with i := true }, pc := (read16 vector u).1
          draws := (read16 vector u).2.draws, device := (read16 vector u).2.device
          iPoll := true } ∧
    (s.Plain vector → s.Plain (vector + 1#16) →
      t.pc = joinBytes (s.byteAt (vector + 1#16)) (s.byteAt vector))

/-- R208: what a handler finds on entry through BRK (B = 1), through IRQ or NMI (B = 0), and through the shared entry with any B bit and return address, on a stack in ram. -/
def Obligations.HandlerFindsTheStackedState : Prop :=
  (∀ s t : State, s.PageOneRam → exec .brk s = .next t →
    t.byteAt (stackAddr (t.sp + 1#8)) = packP true s.p ∧
    (t.byteAt (stackAddr (t.sp + 1#8))).getLsbD 5 = true ∧
    (t.byteAt (stackAddr (t.sp + 1#8))).getLsbD 4 = true ∧
    t.byteAt (stackAddr (t.sp + 2#8)) = lowByte (s.pc + 1#16) ∧
    t.byteAt (stackAddr (t.sp + 3#8)) = highByte (s.pc + 1#16) ∧ t.p.i = true ∧
    t.a = s.a ∧ t.x = s.x ∧ t.y = s.y ∧ t.p = { s.p with i := true }) ∧
  (∀ (e : Event) (s t : State), s.PageOneRam → t = interruptEntry e s →
    t.byteAt (stackAddr (t.sp + 1#8)) = packP false s.p ∧
    (t.byteAt (stackAddr (t.sp + 1#8))).getLsbD 5 = true ∧
    (t.byteAt (stackAddr (t.sp + 1#8))).getLsbD 4 = false ∧
    t.byteAt (stackAddr (t.sp + 2#8)) = lowByte s.pc ∧
    t.byteAt (stackAddr (t.sp + 3#8)) = highByte s.pc ∧ t.p.i = true ∧
    t.a = s.a ∧ t.x = s.x ∧ t.y = s.y ∧ t.p = { s.p with i := true }) ∧
  (∀ (ret vector : Addr) (b : Bool) (s t : State), s.PageOneRam →
    t = enterHandler ret b vector s →
    t.byteAt (stackAddr (t.sp + 1#8)) = packP b s.p ∧
    (t.byteAt (stackAddr (t.sp + 1#8))).getLsbD 5 = true ∧
    (t.byteAt (stackAddr (t.sp + 1#8))).getLsbD 4 = b ∧
    t.byteAt (stackAddr (t.sp + 2#8)) = lowByte ret ∧
    t.byteAt (stackAddr (t.sp + 3#8)) = highByte ret ∧ t.p.i = true ∧
    t.a = s.a ∧ t.x = s.x ∧ t.y = s.y ∧ t.p = { s.p with i := true })

/-- R210: an interrupt entry and RTI are transparent to the interrupted code but for three stack bytes. -/
def Obligations.RtiUndoesInterruptEntry : Prop :=
  ∀ (e : Event) (w : Addr) (p : Flags) (s t u : State), s.PageOneRam →
    t = interruptEntry e s → exec .rti { t with pc := w, p := p } = .next u →
    u = { t with sp := s.sp, p := s.p, pc := s.pc } ∧ u.a = s.a ∧ u.x = s.x ∧ u.y = s.y ∧
    ∀ b : Addr, (∀ k ∈ [0#8, 1#8, 2#8], b ≠ stackAddr (s.sp - k)) → u.byteAt b = s.byteAt b

/-- R206 with I_eff by R211: RESET before all; an accepted event before the instruction at pc; NMI first; IRQ when its line is low and I_eff is 0, by each value of IFlagLatency. -/
def Obligations.PollOrdersNmiBeforeIrqAndMasksIrq : Prop :=
  (∀ s : State, s.lines.resb = .low → step s = .next (resetSequence (sampleLines s))) ∧
  (∀ (s s0 : State) (e : Event), s.lines.resb = .high →
    interruptPoll s.lines.irqbLow (sampleLines s) = (some e, s0) →
    step s = .next (interruptEntry e s0) ∧ (interruptEntry e s0).p.i = true) ∧
  (∀ (low : Bool) (s : State), s.nmiPending = true →
    interruptPoll low s = (some .nmi, s)) ∧
  (∀ s : State, s.nmiPending = false → interruptPoll false s = (none, s)) ∧
  (∀ s : State, s.nmiPending = false → s.cfg.iFlagLatency = .none →
    interruptPoll true s = (if s.p.i then none else some .irq, s)) ∧
  (∀ s : State, s.nmiPending = false → s.cfg.iFlagLatency = .oneInstruction →
    interruptPoll true s = (if s.iPoll then none else some .irq, s)) ∧
  (∀ s : State, s.nmiPending = false → s.cfg.iFlagLatency = .bothAdmitted →
    (s.iPoll = false → s.p.i = false → (interruptPoll true s).1 = some .irq) ∧
    ((interruptPoll true s).1 = some .irq → s.iPoll = false ∨ s.p.i = false) ∧
    ((interruptPoll true s).1 = some .irq ∨ (interruptPoll true s).1 = none))

/-- R204: nmi_pending is set exactly by a high-to-low transition of NMIB since the last boundary, stays set until taken, and a line held low gives no further one. That the levels NMIB took since the last boundary are a list in the schedule entry, and that nmibLow remembers the level they end at, is the model's choice (log 6). -/
def Obligations.NmiIsLatchedOnFallingEdges : Prop :=
  (∀ (low : Bool) (levels : List Bool), fallingEdge low levels = true ↔
    ∃ before after : List Bool, low :: levels = before ++ [false, true] ++ after) ∧
  (∀ n : Nat, fallingEdge true (List.replicate n true) = false) ∧
  (∀ s : State, (sampleLines s).nmiPending =
    (s.nmiPending || fallingEdge s.nmibLow s.lines.nmibLevels) ∧
    some (sampleLines s).nmibLow = (s.nmibLow :: s.lines.nmibLevels).getLast?) ∧
  (∀ (i : Instr) (s t : State), exec i s = .next t → t.nmiPending = s.nmiPending)

/-- R211: after CLI, SEI or PLP i_poll is the I flag from before it, after any other step it is P.I; the effective mask by each latency; so with one_instruction latency a pending IRQ waits one instruction after CLI and is still taken right after SEI. -/
def Obligations.IPollLagsOneInstruction : Prop :=
  (∀ (s s0 s1 t : State) (i : Instr), s.lines.resb = .high →
    interruptPoll s.lines.irqbLow (sampleLines s) = (none, s0) → fetch s0 = .ok (i, s1) →
    step s = .next t →
    t.iPoll = if i.mnemonic = .CLI ∨ i.mnemonic = .SEI ∨ i.mnemonic = .PLP then s.p.i else t.p.i) ∧
  (∀ (s s0 s1 t : State), s.lines.resb = .high → s.nmiPending = false →
    interruptPoll s.lines.irqbLow (sampleLines s) = (none, s0) → fetch s0 = .ok (.cli, s1) →
    step s = .next t → t.cfg.iFlagLatency = .oneInstruction → s.p.i = true → t.p.i = false ∧
    t.nmiPending = false ∧ (interruptPoll true t).1 = none) ∧
  (∀ (s s0 s1 t : State), s.lines.resb = .high → s.nmiPending = false →
    interruptPoll s.lines.irqbLow (sampleLines s) = (none, s0) → fetch s0 = .ok (.sei, s1) →
    step s = .next t → t.cfg.iFlagLatency = .oneInstruction → s.p.i = false → t.p.i = true ∧
    t.nmiPending = false ∧ (interruptPoll true t).1 = some .irq) ∧
  (∀ s t : State, s.lines.resb ≠ .high → step s = .next t → t.iPoll = t.p.i) ∧
  (∀ (s s0 t : State) (e : Event), s.lines.resb = .high →
    interruptPoll s.lines.irqbLow (sampleLines s) = (some e, s0) → step s = .next t →
    t.iPoll = t.p.i) ∧
  (∀ s : State, s.cfg.iFlagLatency = .oneInstruction → (irqUnmasked s).1 = !s.iPoll) ∧
  (∀ s : State, s.cfg.iFlagLatency = .none → (irqUnmasked s).1 = !s.p.i) ∧
  (∀ s : State, s.cfg.iFlagLatency = .bothAdmitted →
    (s.iPoll = false → s.p.i = false → (irqUnmasked s).1 = true) ∧
    ((irqUnmasked s).1 = true → s.iPoll = false ∨ s.p.i = false))

/-- R84 to R89 in plain arithmetic: the modes without a pointer, each with the wrap the spec gives. -/
def Obligations.EffectiveAddressesOfDirectModes : Prop :=
  (∀ (z : Byte) (s : State), (effAddr (.zp z) s).1.toNat = z.toNat ∧ (effAddr (.zp z) s).2 = s) ∧
  (∀ (z : Byte) (s : State), (effAddr (.zpX z) s).1.toNat = (z.toNat + s.x.toNat) % 256 ∧
    (effAddr (.zpX z) s).2 = s) ∧
  (∀ (z : Byte) (s : State), (effAddr (.zpY z) s).1.toNat = (z.toNat + s.y.toNat) % 256 ∧
    (effAddr (.zpY z) s).2 = s) ∧
  (∀ (w : Addr) (s : State), effAddr (.abs w) s = (w, s)) ∧
  (∀ (w : Addr) (s : State), (effAddr (.absX w) s).1.toNat = (w.toNat + s.x.toNat) % 65536 ∧
    (effAddr (.absX w) s).2 = s) ∧
  (∀ (w : Addr) (s : State), (effAddr (.absY w) s).1.toNat = (w.toNat + s.y.toNat) % 65536 ∧
    (effAddr (.absY w) s).2 = s)

/-- R91 and R92: the pointer modes, both pointer bytes in page zero, for plain pointers. -/
def Obligations.EffectiveAddressesThroughZeroPagePointers : Prop :=
  (∀ (z : Byte) (s : State) (p q : Addr), p.toNat = (z.toNat + s.x.toNat) % 256 →
    q.toNat = (z.toNat + s.x.toNat + 1) % 256 → s.Plain p → s.Plain q →
    (effAddr (.indX z) s).1.toNat = (s.byteAt q).toNat * 256 + (s.byteAt p).toNat ∧
    (effAddr (.indX z) s).2 = s) ∧
  (∀ (z : Byte) (s : State) (p q : Addr), p.toNat = z.toNat → q.toNat = (z.toNat + 1) % 256 →
    s.Plain p → s.Plain q →
    (effAddr (.indY z) s).1.toNat =
      ((s.byteAt q).toNat * 256 + (s.byteAt p).toNat + s.y.toNat) % 65536 ∧
    (effAddr (.indY z) s).2 = s)

/-- R95: the order of the reads of the pointer modes, on any platform: each read sees the state, devices included, that the one before it left. -/
def Obligations.PointerModesReadInOrder : Prop :=
  (∀ (z : Byte) (s s1 s2 : State) (p q ea : Addr), p = zeroExtend16 (z + s.x) →
    q = zeroExtend16 (z + s.x + 1#8) → s1 = s.touch p → s2 = s1.touch q →
    ea = joinBytes (s1.peek q) (s.peek p) →
    readOperand (.mem (.indX z)) s = (s2.peek ea, s2.touch ea)) ∧
  (∀ (z : Byte) (s s1 s2 : State) (p q ea : Addr), p = zeroExtend16 z →
    q = zeroExtend16 (z + 1#8) → s1 = s.touch p → s2 = s1.touch q →
    ea = joinBytes (s1.peek q) (s.peek p) + zeroExtend16 s.y →
    readOperand (.mem (.indY z)) s = (s2.peek ea, s2.touch ea)) ∧
  (∀ (w q : Addr) (s s1 s2 : State), q = joinBytes (highByte w) (lowByte w + 1#8) →
    s1 = s.touch w → s2 = s1.touch q →
    exec (.jmpInd w) s = .next (s2.setPc (joinBytes (s1.peek q) (s.peek w))))

/-- R53: a byte written to ram is what a fetch reads there, whichever byte of an instruction of one, two or three bytes it is and wherever the instruction stands, across 0xFFFF included. The first clause is about the write itself, the second about any state t that one write separates from s in memory, such as the state after a store (StoresWriteOneByteAtTheEffectiveAddress). -/
def Obligations.StoresAreSeenByTheNextFetch : Prop :=
  (∀ (w pc : Addr) (v : Byte) (i : Instr) (s : State) (bytes : List Byte), s.kindAt w = .ram →
    bytes = (List.range i.length).map (fun k =>
      if pc + BitVec.ofNat 16 k = w then v else s.byteAt (pc + BitVec.ofNat 16 k)) →
    (∀ k < i.length, s.Plain (pc + BitVec.ofNat 16 k)) → decode bytes = .ok (i, []) →
    fetch ((memWrite w v s).setPc pc) =
      .ok (i, (memWrite w v s).setPc (pc + BitVec.ofNat 16 i.length))) ∧
  (∀ (w : Addr) (v : Byte) (i : Instr) (s t : State) (bytes : List Byte), s.kindAt w = .ram →
    t.cfg = s.cfg → WroteByte s t w v →
    bytes = (List.range i.length).map (fun k =>
      if t.pc + BitVec.ofNat 16 k = w then v else s.byteAt (t.pc + BitVec.ofNat 16 k)) →
    (∀ k < i.length, s.Plain (t.pc + BitVec.ofNat 16 k)) → decode bytes = .ok (i, []) →
    fetch t = .ok (i, t.setPc (t.pc + BitVec.ofNat 16 i.length)))

/-- R9, R26, R31, R32: the byte form of P. -/
def Obligations.PackedStatusUnpacks : Prop :=
  (∀ (b : Bool) (p : Flags), unpackP (packP b p) = p ∧ (packP b p).getLsbD 5 = true ∧
    (packP b p).getLsbD 4 = b) ∧
  (∀ v : Byte, packP (v.getLsbD 4) (unpackP v) = v ||| 0x20#8)

/-- R39: what the spec states of the state after reset; the values of A, X, Y, S, N, V, D, Z, C and of memory are the model's (log 1, log 2) and not claimed. -/
def Obligations.ResetStateHasTheSpecifiedValues : Prop :=
  State.reset.p.i = true ∧ State.reset.nmiPending = false ∧ State.reset.iPoll = State.reset.p.i ∧
  State.reset.pc = joinBytes (State.reset.byteAt 0xFFFD#16) (State.reset.byteAt 0xFFFC#16) ∧
  State.reset.cfg.regions = [] ∧ State.reset.cfg.decimalPolicy = .nmosAlgorithm ∧
  State.reset.cfg.iFlagLatency = .bothAdmitted ∧ State.reset.schedule = []

/-- R230 as a step at a boundary where RESB is asserted (R64), whatever else waits (R205). That a step uses up one entry of the line schedule and leaves nmibLow at the level it ends at is log 6, and that the vector is read after free values have been drawn is log 4. What accesses outside ram leave of the devices' state is in the model's field device (R48, log 3). -/
def Obligations.ResetStepTakesTheVectorAndWritesNothing : Prop :=
  ∀ s : State, s.lines.resb = .low → ∃ t : State, step s = .next t ∧
    t = { s with
          a := t.a, x := t.x, y := t.y, sp := t.sp, p := t.p, pc := t.pc, draws := t.draws
          nmiPending := false, iPoll := true, schedule := s.schedule.tail
          nmibLow := t.nmibLow, device := t.device } ∧ t.p.i = true ∧
    (∃ k : Nat, s.draws ≤ k ∧ t.pc = (read16 0xFFFC#16 { s with draws := k }).1 ∧
      t.device = (read16 0xFFFC#16 { s with draws := k }).2.device) ∧
    (s.Plain 0xFFFC#16 → s.Plain 0xFFFD#16 →
      t.pc = joinBytes (s.byteAt 0xFFFD#16) (s.byteAt 0xFFFC#16))

/-- R64: with no event accepted, a step decodes the bytes at pc and is exec of that instruction on the state with pc past it, then i_poll. -/
def Obligations.StepRunsTheDecodedInstruction : Prop :=
  ∀ (s s0 : State) (i : Instr) (bytes : List Byte), s.lines.resb = .high →
    interruptPoll s.lines.irqbLow (sampleLines s) = (none, s0) →
    bytes = (List.range i.length).map (fun k => s.byteAt (s.pc + BitVec.ofNat 16 k)) →
    (∀ k < i.length, s.Plain (s.pc + BitVec.ofNat 16 k)) → decode bytes = .ok (i, []) →
    i.wellFormed = true →
    step s = (match exec i { s0 with pc := s.pc + BitVec.ofNat 16 i.length } with
      | .next t => .next (afterInstr i s.p.i t)
      | stop => stop)

/-- R66: the 105 bytes, and the fault a step ends in when it fetches one. -/
def Obligations.UnassignedOpcodesFault : Prop :=
  (∀ op : Byte, opcodeLength op = none ↔ op ∈ (
    [0x02#8, 0x03#8, 0x04#8, 0x07#8, 0x0B#8, 0x0C#8, 0x0F#8, 0x12#8, 0x13#8, 0x14#8, 0x17#8,
     0x1A#8, 0x1B#8, 0x1C#8, 0x1F#8, 0x22#8, 0x23#8, 0x27#8, 0x2B#8, 0x2F#8, 0x32#8, 0x33#8,
     0x34#8, 0x37#8, 0x3A#8, 0x3B#8, 0x3C#8, 0x3F#8, 0x42#8, 0x43#8, 0x44#8, 0x47#8, 0x4B#8,
     0x4F#8, 0x52#8, 0x53#8, 0x54#8, 0x57#8, 0x5A#8, 0x5B#8, 0x5C#8, 0x5F#8, 0x62#8, 0x63#8,
     0x64#8, 0x67#8, 0x6B#8, 0x6F#8, 0x72#8, 0x73#8, 0x74#8, 0x77#8, 0x7A#8, 0x7B#8, 0x7C#8,
     0x7F#8, 0x80#8, 0x82#8, 0x83#8, 0x87#8, 0x89#8, 0x8B#8, 0x8F#8, 0x92#8, 0x93#8, 0x97#8,
     0x9B#8, 0x9C#8, 0x9E#8, 0x9F#8, 0xA3#8, 0xA7#8, 0xAB#8, 0xAF#8, 0xB2#8, 0xB3#8, 0xB7#8,
     0xBB#8, 0xBF#8, 0xC2#8, 0xC3#8, 0xC7#8, 0xCB#8, 0xCF#8, 0xD2#8, 0xD3#8, 0xD4#8, 0xD7#8,
     0xDA#8, 0xDB#8, 0xDC#8, 0xDF#8, 0xE2#8, 0xE3#8, 0xE7#8, 0xEB#8, 0xEF#8, 0xF2#8, 0xF3#8,
     0xF4#8, 0xF7#8, 0xFA#8, 0xFB#8, 0xFC#8, 0xFF#8] : List Byte)) ∧
  (∀ (s s0 : State), s.lines.resb = .high →
    interruptPoll s.lines.irqbLow (sampleLines s) = (none, s0) →
    opcodeLength (s0.peek s.pc) = none →
    step s = .fault (.illegalOpcode (s0.peek s.pc) s.pc))

/-- R201: every assigned instruction completes; only DecimalPolicy = refuse stops ADC and SBC with D = 1. -/
def Obligations.EveryInstructionCompletes : Prop :=
  ∀ (i : Instr) (s : State), (∃ t : State, exec i s = .next t) ∨
    ((i.mnemonic = .ADC ∨ i.mnemonic = .SBC) ∧ s.p.d = true ∧
      s.cfg.decimalPolicy = .refuse ∧ exec i s = .refused .decimal)

/-- R201, R10 over the whole machine: the only fault is IllegalOpcode at pc, the only refusal the decimal one. -/
def Obligations.StepsStopOnlyWhereTheSpecSays : Prop :=
  (∀ (s : State) (f : Fault), step s = .fault f → ∃ op : Byte,
    f = .illegalOpcode op s.pc ∧ opcodeLength op = none) ∧
  (∀ (s : State) (r : Refusal), step s = .refused r →
    r = .decimal ∧ s.p.d = true ∧ s.cfg.decimalPolicy = .refuse)

/-- R21 to R24: which instructions write A, X, Y and S. -/
def Obligations.OnlyListedInstructionsWriteARegister : Prop :=
  ∀ (i : Instr) (s t : State), exec i s = .next t →
    (i.mnemonic ∉ [.ADC, .AND, .EOR, .LDA, .ORA, .PLA, .SBC, .TXA, .TYA] →
      i.operand ≠ .accumulator → t.a = s.a) ∧
    (i.mnemonic ∉ [.DEX, .INX, .LDX, .TAX, .TSX] → t.x = s.x) ∧
    (i.mnemonic ∉ [.DEY, .INY, .LDY, .TAY] → t.y = s.y) ∧
    (i.mnemonic ∉ [.PHA, .PHP, .PLA, .PLP, .JSR, .RTS, .RTI, .BRK, .TXS] → t.sp = s.sp) ∧
    (i.mnemonic ∉ [.BCC, .BCS, .BEQ, .BMI, .BNE, .BPL, .BVC, .BVS, .JMP, .JSR, .RTS, .RTI, .BRK] →
      t.pc = s.pc)

/-- R27 to R34, R175: which instructions write C, Z, I, D, V and N. -/
def Obligations.OnlyListedInstructionsWriteAFlag : Prop :=
  ∀ (i : Instr) (s t : State), exec i s = .next t →
    (i.mnemonic ∉ [.ADC, .SBC, .CMP, .CPX, .CPY, .ASL, .ROL, .LSR, .ROR, .SEC, .CLC, .PLP, .RTI] →
      t.p.c = s.p.c) ∧
    (i.mnemonic ∉ [.ADC, .AND, .ASL, .CMP, .CPX, .CPY, .DEC, .DEX, .DEY, .EOR, .INC, .INX, .INY,
        .LDA, .LDX, .LDY, .LSR, .ORA, .PLA, .ROL, .ROR, .SBC, .TAX, .TAY, .TSX, .TXA, .TYA, .BIT,
        .PLP, .RTI] → t.p.z = s.p.z ∧ t.p.n = s.p.n) ∧
    (i.mnemonic ∉ [.SEI, .BRK, .CLI, .PLP, .RTI] → t.p.i = s.p.i) ∧
    (i.mnemonic ∉ [.SED, .CLD, .PLP, .RTI] → t.p.d = s.p.d) ∧
    (i.mnemonic ∉ [.ADC, .SBC, .BIT, .CLV, .PLP, .RTI] → t.p.v = s.p.v) ∧
    (t.p.v = true → s.p.v = false → i.mnemonic ∈ [.ADC, .SBC, .BIT, .PLP, .RTI])

/-- Which instructions write memory (R47), and that no instruction writes the hidden bits (R38). The rest are the model's choices: that no instruction changes the line schedule or the NMIB level (log 6: the lines do not react to the program), the map (log 3) or the parameters (log 12), and that the count of free values does not fall (log 5). -/
def Obligations.OnlyStoringInstructionsWriteMemory : Prop :=
  ∀ (i : Instr) (s t : State), exec i s = .next t →
    (i.mnemonic ∉ [.STA, .STX, .STY, .INC, .DEC, .ASL, .LSR, .ROL, .ROR, .PHA, .PHP, .JSR, .BRK] ∨
      i.operand = .accumulator → t.mem = s.mem ∧ t.events = s.events) ∧
    t.nmiPending = s.nmiPending ∧ t.iPoll = s.iPoll ∧ t.cfg = s.cfg ∧ t.schedule = s.schedule ∧
    t.nmibLow = s.nmibLow ∧ s.draws ≤ t.draws

/-- Over the whole machine: no step of any kind changes a byte of rom (R48: writes change nothing), nor, by the model's choices, a byte held at a device or unmapped address (log 3: what a device does with a write is in the field device and shows in what it answers, not in memory), the map (log 3) or the parameters (log 12). -/
def Obligations.StepKeepsReadOnlyMemory : Prop :=
  ∀ s t : State, step s = .next t →
    t.cfg = s.cfg ∧ ∀ a : Addr, s.kindAt a ≠ .ram → t.byteAt a = s.byteAt a

/-- The invariant of the state: memory in canonical form and the recorded writes outside ram. It is the model's own representation (log 2, log 3), over the 65536 addresses of R37. -/
def Obligations.StepKeepsWellFormedness : Prop :=
  ∀ s t : State, s.wf = true → step s = .next t → t.wf = true

/-- The invariant holds at reset. It is the model's own representation (log 2, log 3), and so is the empty memory of the reset state (log 2); R37 and R39 do not speak of it. -/
def Obligations.ResetStateIsWellFormed : Prop :=
  State.reset.wf = true

/-- Decoding the bytes of any instruction gives it back with the bytes after it, for every operand value (R60 to R63, R65, R67). -/
def Obligations.DecodeInvertsEncode : Prop :=
  ∀ (i : Instr) (rest : List Byte), decode (encode i ++ rest) = .ok (i, rest)

/-- What the decoder reads, the encoder writes: no two byte sequences decode to one instruction, and the length is that of the table. -/
def Obligations.EncodeInvertsDecode : Prop :=
  ∀ (bytes rest : List Byte) (i : Instr), decode bytes = .ok (i, rest) →
    encode i ++ rest = bytes ∧ bytes.length = i.length + rest.length ∧ i.wellFormed = true

/-- The check values of 95_test_vectors.md section 1 and a word of each family. -/
def Obligations.OpcodeMapMatchesTheCheckValues : Prop :=
  (opcodeRows.length = 151 ∧ (opcodeRows.map (·.1)).Nodup ∧
    (opcodeRows.filter (fun r => r.2.bytes == 1)).length = 29 ∧
    (opcodeRows.filter (fun r => r.2.bytes == 2)).length = 74 ∧
    (opcodeRows.filter (fun r => r.2.bytes == 3)).length = 48) ∧
  decodeTableWord 16 0x44A9 = some (.ldaImm 0x44#8) ∧ decodeTableWord 8 0x9A = some .txs ∧
  decodeTableWord 24 0x44002C = some (.bitAbs 0x4400#16) ∧
  decodeTableWord 16 0x4461 = some (.adcIndX 0x44#8) ∧ decodeTableWord 8 0xC8 = some .iny ∧
  decodeTableWord 24 0x44007E = some (.rorAbsX 0x4400#16) ∧
  decodeTableWord 24 0x44006C = some (.jmpInd 0x4400#16) ∧ decodeTableWord 8 0x78 = some .sei ∧
  decodeTableWord 8 0x00 = some .brk ∧ decodeTableWord 8 0x80 = none

/-- R233: the conventional end of a program, a JMP to its own address, changes no state but i_poll, which the step makes equal to P.I; a run whose stop address is that address ends there at once, and a run with another stop address never ends, however long it is. -/
def Obligations.JumpToItselfStopsARun : Prop :=
  ∀ (s : State) (stop : Addr) (fuel : Nat), s.schedule = [] → s.nmiPending = false →
    (∀ k ∈ [0#16, 1#16, 2#16], s.Plain (s.pc + k)) → s.byteAt s.pc = 0x4C#8 →
    s.byteAt (s.pc + 1#16) = lowByte s.pc → s.byteAt (s.pc + 2#16) = highByte s.pc →
    step s = .next { s with iPoll := s.p.i } ∧
    runUntil (atStop stop) fuel s =
      (if s.pc = stop then .stopped s
      else .outOfFuel { s with iPoll := if fuel = 0 then s.iPoll else s.p.i })

/-- The model's own way of placing an instruction (log 11): the very next step fetches it. -/
def Obligations.FetchWindowRunsThePlacedInstruction : Prop :=
  ∀ (s : State) (i : Instr) (nbits w : Nat), decodeTableWord nbits w = some i →
    ∃ s0 : State, s0 = s.withFetchWord nbits w ∧
      s0.lines.resb = .high ∧
      interruptPoll s0.lines.irqbLow (sampleLines s0) = (none, sampleLines s0) ∧
      fetch (sampleLines s0) =
        .ok (i, (sampleLines s0).setPc (s.pc + BitVec.ofNat 16 i.length))

/-- R233 with StopCondition as an argument (log 14): a run ends at the first boundary where the condition holds, and in the state of that boundary; by the default condition that is the first boundary where pc is the stop address; a fault is never a final state. What a fault or a refusal ends is found one step after the last boundary. -/
def Obligations.RunsEndAtTheFirstStop : Prop :=
  (∀ (stop : StopCondition) (fuel : Nat) (s t : State), runUntil stop fuel s = .stopped t ↔
    ∃ n ≤ fuel, runSteps n s = .next t ∧ stop t = true ∧
      ∀ k < n, ∀ u : State, runSteps k s = .next u → stop u = false) ∧
  (∀ (a : Addr) (fuel : Nat) (s t : State), runUntil (atStop a) fuel s = .stopped t ↔
    ∃ n ≤ fuel, runSteps n s = .next t ∧ t.pc = a ∧
      ∀ k < n, ∀ u : State, runSteps k s = .next u → u.pc ≠ a) ∧
  (∀ (stop : StopCondition) (fuel : Nat) (s : State) (f : Fault),
    runUntil stop fuel s = .fault f ↔
    ∃ n < fuel, ∃ t : State, runSteps n s = .next t ∧ step t = .fault f ∧
      ∀ k ≤ n, ∀ u : State, runSteps k s = .next u → stop u = false)

/-- R205, U8: RESB asserted inside an instruction or an interrupt entry. Memory and the record of writes can change only at the addresses that the instruction (or the entry) writes; then the machine is as after a reset. What stands at those addresses is free. That the assertion is an input of the schedule entry of that boundary is the model's form (log 6, log 9). -/
def Obligations.ResetInsideAStepOpensOnlyItsWrites : Prop :=
  ∀ (s s0 s1 : State) (addrs : List Addr), s.lines.resb = .fallsInside →
    ((∃ e : Event, interruptPoll s.lines.irqbLow (sampleLines s) = (some e, s0) ∧ s1 = s0 ∧
        addrs = entryAddrs s0) ∨
      (∃ i : Instr, interruptPoll s.lines.irqbLow (sampleLines s) = (none, s0) ∧
        fetch s0 = .ok (i, s1) ∧ addrs = storeAddrs i s1)) →
    ∃ (t : State) (written : List Host.Cell), step s = .next t ∧ t.p.i = true ∧
      t.nmiPending = false ∧ t.iPoll = true ∧ t.cfg = s.cfg ∧ t.schedule = s.schedule.tail ∧
      (∀ b : Addr, b ∉ addrs → t.byteAt b = s.byteAt b) ∧
      t.events = written ++ s.events ∧ (∀ c ∈ written, c.1 ∈ addrs.map BitVec.toNat) ∧
      (s.Plain 0xFFFC#16 → s.Plain 0xFFFD#16 →
        t.pc = joinBytes (t.byteAt 0xFFFD#16) (t.byteAt 0xFFFC#16))

/-- R47 over all instructions and both entries: the bytes that can change are those at storeAddrs (entryAddrs), the locations R205 and U8 call the instruction's own writes; in ram the last of several writes to one address is what stays. -/
def Obligations.InstructionsWriteOnlyAtTheirStoreAddresses : Prop :=
  (∀ (i : Instr) (s t : State), exec i s = .next t →
    ∀ b : Addr, b ∉ storeAddrs i s → t.byteAt b = s.byteAt b) ∧
  (∀ (i : Instr) (s t : State), exec i s = .next t → ∃ written : List Host.Cell,
    t.events = written ++ s.events ∧
    (written.map (·.1)).reverse =
      ((storeAddrs i s).filter (fun a => decide (s.kindAt a ≠ .ram))).map BitVec.toNat) ∧
  (∀ (e : Event) (s t : State), t = interruptEntry e s →
    ∀ b : Addr, b ∉ entryAddrs s → t.byteAt b = s.byteAt b)

/-- R48 for one access of each kind: ram and rom give the stored byte and only ram takes one; a device answers from its state, which a read and a write may change; an unmapped address gives a free value; a write outside ram is recorded and seen by the devices (U6). The field device and the free functions of it are the model's form of the device oracle (log 3). -/
def Obligations.AccessesFollowTheKindOfAddress : Prop :=
  (∀ (a : Addr) (s : State), s.kindAt a = .ram ∨ s.kindAt a = .rom →
    memRead a s = (s.byteAt a, s)) ∧
  (∀ (a : Addr) (s : State), s.kindAt a = .device →
    memRead a s = (Config.deviceByte s.device s.draws a.toNat,
      { s with
        draws := s.draws + 1, device := Config.deviceAfterRead s.device s.draws a.toNat })) ∧
  (∀ (a : Addr) (s : State), s.kindAt a = .unmapped →
    memRead a s = (Config.busByte s.draws a.toNat, { s with draws := s.draws + 1 })) ∧
  (∀ (a : Addr) (v : Byte) (s : State), s.kindAt a = .ram →
    memRead a (memWrite a v s) = (v, memWrite a v s) ∧
    memWrite a v s = { s with mem := (memWrite a v s).mem } ∧
    ∀ b : Addr, b ≠ a → (memWrite a v s).byteAt b = s.byteAt b) ∧
  (∀ (a : Addr) (v : Byte) (s : State), s.kindAt a ≠ .ram →
    memWrite a v s =
      { s with
        events := (a.toNat, v) :: s.events
        device := Config.deviceAfterWrite s.device s.draws a.toNat v })
end

