-- ==== Sys2Proof/Laws/Memory.lean ====
section
/-! SUPPORT. The laws of memory: reading after writing, for any list; the canonical form kept by every operation; and that memories in canonical form that read alike are equal. -/

namespace Sys2Proof.Machine

theorem Memory.read_erase_same (m : Memory) (a : Nat) :
    (m.erase a).read a = Config.unlistedByte := by
  induction m with
  | nil => rfl
  | cons e m ih =>
    obtain ⟨k, v⟩ := e
    by_cases h : k = a <;> simp [Memory.erase, Memory.read, h, ih]

theorem Memory.read_erase_other (m : Memory) {a b : Nat} (hne : b ≠ a) :
    (m.erase a).read b = m.read b := by
  induction m with
  | nil => rfl
  | cons e m ih =>
    obtain ⟨k, v⟩ := e
    by_cases h : k = a
    · subst h; simp [Memory.erase, Memory.read, ih, hne.symm]
    · simp [Memory.erase, Memory.read, h, ih]

/-- Reading where an entry has been put in: nothing before it in the list is at that address. -/
theorem Memory.read_insert_same (m : Memory) (a : Nat) (v : Byte)
    (h : ∀ e ∈ m, e.1 ≠ a) : (m.insert a v).read a = v := by
  induction m with
  | nil => simp [Memory.insert, Memory.read]
  | cons e m ih =>
    obtain ⟨k, w⟩ := e
    have hk : k ≠ a := h (k, w) (by simp)
    by_cases hlt : a < k
    · simp [Memory.insert, Memory.read, hlt]
    · simp [Memory.insert, Memory.read, hlt, hk, ih fun e he => h e (by simp [he])]

theorem Memory.read_insert_other (m : Memory) {a b : Nat} (v : Byte) (hne : b ≠ a) :
    (m.insert a v).read b = m.read b := by
  induction m with
  | nil => simp [Memory.insert, Memory.read, hne.symm]
  | cons e m ih =>
    obtain ⟨k, w⟩ := e
    by_cases hlt : a < k <;> simp [Memory.insert, Memory.read, hlt, hne.symm, ih]

theorem Memory.not_mem_erase (m : Memory) (a : Nat) : ∀ e ∈ m.erase a, e.1 ≠ a := by
  induction m with
  | nil => simp [Memory.erase]
  | cons e m ih =>
    obtain ⟨k, w⟩ := e
    by_cases h : k = a
    · simpa [Memory.erase, h] using ih
    · intro e he
      simp only [Memory.erase, h, if_false, List.mem_cons] at he
      rcases he with rfl | he
      · exact h
      · exact ih e he

/-- R50: a read returns the value of the most recent write to its address. -/
@[simp] theorem Memory.read_write_same (m : Memory) (a : Nat) (v : Byte) :
    (m.write a v).read a = v := by
  unfold Memory.write
  split
  · rename_i h; rw [Memory.read_erase_same, h]
  · exact Memory.read_insert_same _ _ _ (Memory.not_mem_erase m a)

/-- A write leaves every other address alone. -/
theorem Memory.read_write_other (m : Memory) {a b : Nat} (v : Byte) (hne : b ≠ a) :
    (m.write a v).read b = m.read b := by
  unfold Memory.write
  split
  · exact Memory.read_erase_other m hne
  · rw [Memory.read_insert_other _ _ hne, Memory.read_erase_other m hne]

/-- One read of a written memory. -/
theorem Memory.read_write (m : Memory) (a b : Nat) (v : Byte) :
    (m.write a v).read b = if b = a then v else m.read b := by
  split
  · rename_i h; rw [h, Memory.read_write_same]
  · rename_i h; exact Memory.read_write_other m v h

theorem Memory.wfFrom_mono {lo lo' : Nat} (h : lo' ≤ lo) (m : Memory) :
    Memory.wfFrom lo m = true → Memory.wfFrom lo' m = true := by
  cases m with
  | nil => simp [Memory.wfFrom]
  | cons e m =>
    simp only [Memory.wfFrom, Bool.and_eq_true, decide_eq_true_eq]
    rintro ⟨⟨⟨h1, h2⟩, h3⟩, h4⟩
    exact ⟨⟨⟨by omega, h2⟩, h3⟩, h4⟩

theorem Memory.wfFrom_erase (m : Memory) (a lo : Nat) (h : Memory.wfFrom lo m = true) :
    Memory.wfFrom lo (m.erase a) = true := by
  induction m generalizing lo with
  | nil => exact h
  | cons e m ih =>
    obtain ⟨k, v⟩ := e
    simp only [Memory.wfFrom, Bool.and_eq_true, decide_eq_true_eq] at h
    by_cases hk : k = a
    · simp only [Memory.erase, hk, if_true]
      exact Memory.wfFrom_mono (by omega) _ (ih (k + 1) h.2)
    · simp only [Memory.erase, hk, if_false, Memory.wfFrom, Bool.and_eq_true, decide_eq_true_eq]
      exact ⟨h.1, ih (k + 1) h.2⟩

theorem Memory.wfFrom_insert (m : Memory) (a lo : Nat) (v : Byte) (hlo : lo ≤ a) (ha : a < 65536)
    (hv : v ≠ Config.unlistedByte) (hm : ∀ e ∈ m, e.1 ≠ a) (h : Memory.wfFrom lo m = true) :
    Memory.wfFrom lo (m.insert a v) = true := by
  induction m generalizing lo with
  | nil => simp [Memory.insert, Memory.wfFrom, hlo, ha, hv]
  | cons e m ih =>
    obtain ⟨k, w⟩ := e
    simp only [Memory.wfFrom, Bool.and_eq_true, decide_eq_true_eq] at h
    have hk : k ≠ a := hm (k, w) (by simp)
    by_cases hlt : a < k
    · simp only [Memory.insert, hlt, if_true, Memory.wfFrom, Bool.and_eq_true, decide_eq_true_eq]
      exact ⟨⟨⟨hlo, ha⟩, hv⟩, ⟨⟨by omega, h.1.1.2⟩, h.1.2⟩, h.2⟩
    · simp only [Memory.insert, hlt, if_false, Memory.wfFrom, Bool.and_eq_true, decide_eq_true_eq]
      exact ⟨h.1, ih (k + 1) (by omega) (fun e he => hm e (by simp [he])) h.2⟩

/-- Every write at an address of the space keeps the canonical form. -/
theorem Memory.wf_write (m : Memory) (a : Nat) (v : Byte) (ha : a < 65536) (h : m.wf = true) :
    (m.write a v).wf = true := by
  unfold Memory.write
  split
  · exact Memory.wfFrom_erase m a 0 h
  · rename_i hv
    exact Memory.wfFrom_insert _ a 0 v (Nat.zero_le a) ha hv (Memory.not_mem_erase m a)
      (Memory.wfFrom_erase m a 0 h)

/-- The empty memory of reset is in canonical form. -/
theorem Memory.wf_nil : Memory.wf [] = true := rfl

theorem Memory.read_below {lo : Nat} (m : Memory) (h : Memory.wfFrom lo m = true) {a : Nat}
    (ha : a < lo) : m.read a = Config.unlistedByte := by
  induction m generalizing lo with
  | nil => rfl
  | cons e m ih =>
    obtain ⟨k, v⟩ := e
    simp only [Memory.wfFrom, Bool.and_eq_true, decide_eq_true_eq] at h
    simp only [Memory.read, show k ≠ a by omega, if_false]
    exact ih h.2 (by omega)

/-- Two memories in canonical form that read alike are the same list. -/
theorem Memory.ext_of_wfFrom {lo : Nat} (m m' : Memory) (h : Memory.wfFrom lo m = true)
    (h' : Memory.wfFrom lo m' = true) (heq : ∀ a, m.read a = m'.read a) : m = m' := by
  induction m generalizing lo m' with
  | nil =>
    cases m' with
    | nil => rfl
    | cons e m' =>
      obtain ⟨k, v⟩ := e
      simp only [Memory.wfFrom, Bool.and_eq_true, decide_eq_true_eq] at h'
      exact absurd (by simpa [Memory.read] using (heq k).symm) h'.1.2
  | cons e m ih =>
    obtain ⟨k, v⟩ := e
    simp only [Memory.wfFrom, Bool.and_eq_true, decide_eq_true_eq] at h
    cases m' with
    | nil => exact absurd (by simpa [Memory.read] using heq k) h.1.2
    | cons e' m' =>
      obtain ⟨k', v'⟩ := e'
      simp only [Memory.wfFrom, Bool.and_eq_true, decide_eq_true_eq] at h'
      have hk : k = k' := by
        by_contra hne
        rcases Nat.lt_or_gt_of_ne hne with hlt | hlt
        · have := heq k
          simp only [Memory.read, if_true, show k' ≠ k by omega, if_false] at this
          exact h.1.2 (this.trans (Memory.read_below m' h'.2 (by omega)))
        · have := heq k'
          simp only [Memory.read, if_true, show k ≠ k' by omega, if_false] at this
          exact h'.1.2 (this.symm.trans (Memory.read_below m h.2 (by omega)))
      subst hk
      have hv : v = v' := by simpa [Memory.read] using heq k
      subst hv
      congr 1
      refine ih m' h.2 h'.2 fun a => ?_
      by_cases ha : k = a
      · subst ha
        rw [Memory.read_below m h.2 (by omega), Memory.read_below m' h'.2 (by omega)]
      · simpa [Memory.read, ha] using heq a

/-- Equal reads are equal memories, for memories in canonical form. -/
theorem Memory.ext_of_wf (m m' : Memory) (h : m.wf = true) (h' : m'.wf = true)
    (heq : ∀ a, m.read a = m'.read a) : m = m' :=
  Memory.ext_of_wfFrom m m' h h' heq

end Sys2Proof.Machine
end

