-- ==== Sys2Proof/Laws/State.lean ====
section
/-! SUPPORT. What each named update of the state does to each field: one simp lemma per field per update, so that no later proof unfolds a record update. -/

namespace Sys2Proof.Machine

variable (s : State)

@[simp] theorem State.setA_a (v : Byte) : (s.setA v).a = v := rfl
@[simp] theorem State.setA_x (v : Byte) : (s.setA v).x = s.x := rfl
@[simp] theorem State.setA_y (v : Byte) : (s.setA v).y = s.y := rfl
@[simp] theorem State.setA_sp (v : Byte) : (s.setA v).sp = s.sp := rfl
@[simp] theorem State.setA_pc (v : Byte) : (s.setA v).pc = s.pc := rfl
@[simp] theorem State.setA_p (v : Byte) : (s.setA v).p = s.p := rfl
@[simp] theorem State.setA_mem (v : Byte) : (s.setA v).mem = s.mem := rfl
@[simp] theorem State.setA_nmiPending (v : Byte) : (s.setA v).nmiPending = s.nmiPending := rfl
@[simp] theorem State.setA_iPoll (v : Byte) : (s.setA v).iPoll = s.iPoll := rfl
@[simp] theorem State.setA_cfg (v : Byte) : (s.setA v).cfg = s.cfg := rfl
@[simp] theorem State.setA_schedule (v : Byte) : (s.setA v).schedule = s.schedule := rfl
@[simp] theorem State.setA_nmibLow (v : Byte) : (s.setA v).nmibLow = s.nmibLow := rfl
@[simp] theorem State.setA_draws (v : Byte) : (s.setA v).draws = s.draws := rfl
@[simp] theorem State.setA_device (v : Byte) : (s.setA v).device = s.device := rfl
@[simp] theorem State.setA_events (v : Byte) : (s.setA v).events = s.events := rfl
@[simp] theorem State.setA_jsrOverlap (v : Byte) : (s.setA v).jsrOverlap = s.jsrOverlap := rfl

@[simp] theorem State.setX_a (v : Byte) : (s.setX v).a = s.a := rfl
@[simp] theorem State.setX_x (v : Byte) : (s.setX v).x = v := rfl
@[simp] theorem State.setX_y (v : Byte) : (s.setX v).y = s.y := rfl
@[simp] theorem State.setX_sp (v : Byte) : (s.setX v).sp = s.sp := rfl
@[simp] theorem State.setX_pc (v : Byte) : (s.setX v).pc = s.pc := rfl
@[simp] theorem State.setX_p (v : Byte) : (s.setX v).p = s.p := rfl
@[simp] theorem State.setX_mem (v : Byte) : (s.setX v).mem = s.mem := rfl
@[simp] theorem State.setX_nmiPending (v : Byte) : (s.setX v).nmiPending = s.nmiPending := rfl
@[simp] theorem State.setX_iPoll (v : Byte) : (s.setX v).iPoll = s.iPoll := rfl
@[simp] theorem State.setX_cfg (v : Byte) : (s.setX v).cfg = s.cfg := rfl
@[simp] theorem State.setX_schedule (v : Byte) : (s.setX v).schedule = s.schedule := rfl
@[simp] theorem State.setX_nmibLow (v : Byte) : (s.setX v).nmibLow = s.nmibLow := rfl
@[simp] theorem State.setX_draws (v : Byte) : (s.setX v).draws = s.draws := rfl
@[simp] theorem State.setX_device (v : Byte) : (s.setX v).device = s.device := rfl
@[simp] theorem State.setX_events (v : Byte) : (s.setX v).events = s.events := rfl
@[simp] theorem State.setX_jsrOverlap (v : Byte) : (s.setX v).jsrOverlap = s.jsrOverlap := rfl

@[simp] theorem State.setY_a (v : Byte) : (s.setY v).a = s.a := rfl
@[simp] theorem State.setY_x (v : Byte) : (s.setY v).x = s.x := rfl
@[simp] theorem State.setY_y (v : Byte) : (s.setY v).y = v := rfl
@[simp] theorem State.setY_sp (v : Byte) : (s.setY v).sp = s.sp := rfl
@[simp] theorem State.setY_pc (v : Byte) : (s.setY v).pc = s.pc := rfl
@[simp] theorem State.setY_p (v : Byte) : (s.setY v).p = s.p := rfl
@[simp] theorem State.setY_mem (v : Byte) : (s.setY v).mem = s.mem := rfl
@[simp] theorem State.setY_nmiPending (v : Byte) : (s.setY v).nmiPending = s.nmiPending := rfl
@[simp] theorem State.setY_iPoll (v : Byte) : (s.setY v).iPoll = s.iPoll := rfl
@[simp] theorem State.setY_cfg (v : Byte) : (s.setY v).cfg = s.cfg := rfl
@[simp] theorem State.setY_schedule (v : Byte) : (s.setY v).schedule = s.schedule := rfl
@[simp] theorem State.setY_nmibLow (v : Byte) : (s.setY v).nmibLow = s.nmibLow := rfl
@[simp] theorem State.setY_draws (v : Byte) : (s.setY v).draws = s.draws := rfl
@[simp] theorem State.setY_device (v : Byte) : (s.setY v).device = s.device := rfl
@[simp] theorem State.setY_events (v : Byte) : (s.setY v).events = s.events := rfl
@[simp] theorem State.setY_jsrOverlap (v : Byte) : (s.setY v).jsrOverlap = s.jsrOverlap := rfl

@[simp] theorem State.setSp_a (v : Byte) : (s.setSp v).a = s.a := rfl
@[simp] theorem State.setSp_x (v : Byte) : (s.setSp v).x = s.x := rfl
@[simp] theorem State.setSp_y (v : Byte) : (s.setSp v).y = s.y := rfl
@[simp] theorem State.setSp_sp (v : Byte) : (s.setSp v).sp = v := rfl
@[simp] theorem State.setSp_pc (v : Byte) : (s.setSp v).pc = s.pc := rfl
@[simp] theorem State.setSp_p (v : Byte) : (s.setSp v).p = s.p := rfl
@[simp] theorem State.setSp_mem (v : Byte) : (s.setSp v).mem = s.mem := rfl
@[simp] theorem State.setSp_nmiPending (v : Byte) : (s.setSp v).nmiPending = s.nmiPending := rfl
@[simp] theorem State.setSp_iPoll (v : Byte) : (s.setSp v).iPoll = s.iPoll := rfl
@[simp] theorem State.setSp_cfg (v : Byte) : (s.setSp v).cfg = s.cfg := rfl
@[simp] theorem State.setSp_schedule (v : Byte) : (s.setSp v).schedule = s.schedule := rfl
@[simp] theorem State.setSp_nmibLow (v : Byte) : (s.setSp v).nmibLow = s.nmibLow := rfl
@[simp] theorem State.setSp_draws (v : Byte) : (s.setSp v).draws = s.draws := rfl
@[simp] theorem State.setSp_device (v : Byte) : (s.setSp v).device = s.device := rfl
@[simp] theorem State.setSp_events (v : Byte) : (s.setSp v).events = s.events := rfl
@[simp] theorem State.setSp_jsrOverlap (v : Byte) : (s.setSp v).jsrOverlap = s.jsrOverlap := rfl

@[simp] theorem State.setPc_a (w : Addr) : (s.setPc w).a = s.a := rfl
@[simp] theorem State.setPc_x (w : Addr) : (s.setPc w).x = s.x := rfl
@[simp] theorem State.setPc_y (w : Addr) : (s.setPc w).y = s.y := rfl
@[simp] theorem State.setPc_sp (w : Addr) : (s.setPc w).sp = s.sp := rfl
@[simp] theorem State.setPc_pc (w : Addr) : (s.setPc w).pc = w := rfl
@[simp] theorem State.setPc_p (w : Addr) : (s.setPc w).p = s.p := rfl
@[simp] theorem State.setPc_mem (w : Addr) : (s.setPc w).mem = s.mem := rfl
@[simp] theorem State.setPc_nmiPending (w : Addr) : (s.setPc w).nmiPending = s.nmiPending := rfl
@[simp] theorem State.setPc_iPoll (w : Addr) : (s.setPc w).iPoll = s.iPoll := rfl
@[simp] theorem State.setPc_cfg (w : Addr) : (s.setPc w).cfg = s.cfg := rfl
@[simp] theorem State.setPc_schedule (w : Addr) : (s.setPc w).schedule = s.schedule := rfl
@[simp] theorem State.setPc_nmibLow (w : Addr) : (s.setPc w).nmibLow = s.nmibLow := rfl
@[simp] theorem State.setPc_draws (w : Addr) : (s.setPc w).draws = s.draws := rfl
@[simp] theorem State.setPc_device (w : Addr) : (s.setPc w).device = s.device := rfl
@[simp] theorem State.setPc_events (w : Addr) : (s.setPc w).events = s.events := rfl
@[simp] theorem State.setPc_jsrOverlap (w : Addr) : (s.setPc w).jsrOverlap = s.jsrOverlap := rfl

@[simp] theorem State.setP_a (p : Flags) : (s.setP p).a = s.a := rfl
@[simp] theorem State.setP_x (p : Flags) : (s.setP p).x = s.x := rfl
@[simp] theorem State.setP_y (p : Flags) : (s.setP p).y = s.y := rfl
@[simp] theorem State.setP_sp (p : Flags) : (s.setP p).sp = s.sp := rfl
@[simp] theorem State.setP_pc (p : Flags) : (s.setP p).pc = s.pc := rfl
@[simp] theorem State.setP_p (p : Flags) : (s.setP p).p = p := rfl
@[simp] theorem State.setP_mem (p : Flags) : (s.setP p).mem = s.mem := rfl
@[simp] theorem State.setP_nmiPending (p : Flags) : (s.setP p).nmiPending = s.nmiPending := rfl
@[simp] theorem State.setP_iPoll (p : Flags) : (s.setP p).iPoll = s.iPoll := rfl
@[simp] theorem State.setP_cfg (p : Flags) : (s.setP p).cfg = s.cfg := rfl
@[simp] theorem State.setP_schedule (p : Flags) : (s.setP p).schedule = s.schedule := rfl
@[simp] theorem State.setP_nmibLow (p : Flags) : (s.setP p).nmibLow = s.nmibLow := rfl
@[simp] theorem State.setP_draws (p : Flags) : (s.setP p).draws = s.draws := rfl
@[simp] theorem State.setP_device (p : Flags) : (s.setP p).device = s.device := rfl
@[simp] theorem State.setP_events (p : Flags) : (s.setP p).events = s.events := rfl
@[simp] theorem State.setP_jsrOverlap (p : Flags) : (s.setP p).jsrOverlap = s.jsrOverlap := rfl

@[simp] theorem State.setMem_a (m : Memory) : (s.setMem m).a = s.a := rfl
@[simp] theorem State.setMem_x (m : Memory) : (s.setMem m).x = s.x := rfl
@[simp] theorem State.setMem_y (m : Memory) : (s.setMem m).y = s.y := rfl
@[simp] theorem State.setMem_sp (m : Memory) : (s.setMem m).sp = s.sp := rfl
@[simp] theorem State.setMem_pc (m : Memory) : (s.setMem m).pc = s.pc := rfl
@[simp] theorem State.setMem_p (m : Memory) : (s.setMem m).p = s.p := rfl
@[simp] theorem State.setMem_mem (m : Memory) : (s.setMem m).mem = m := rfl
@[simp] theorem State.setMem_nmiPending (m : Memory) : (s.setMem m).nmiPending = s.nmiPending := rfl
@[simp] theorem State.setMem_iPoll (m : Memory) : (s.setMem m).iPoll = s.iPoll := rfl
@[simp] theorem State.setMem_cfg (m : Memory) : (s.setMem m).cfg = s.cfg := rfl
@[simp] theorem State.setMem_schedule (m : Memory) : (s.setMem m).schedule = s.schedule := rfl
@[simp] theorem State.setMem_nmibLow (m : Memory) : (s.setMem m).nmibLow = s.nmibLow := rfl
@[simp] theorem State.setMem_draws (m : Memory) : (s.setMem m).draws = s.draws := rfl
@[simp] theorem State.setMem_device (m : Memory) : (s.setMem m).device = s.device := rfl
@[simp] theorem State.setMem_events (m : Memory) : (s.setMem m).events = s.events := rfl
@[simp] theorem State.setMem_jsrOverlap (m : Memory) : (s.setMem m).jsrOverlap = s.jsrOverlap := rfl

@[simp] theorem State.drawn_a : (s.drawn).a = s.a := rfl
@[simp] theorem State.drawn_x : (s.drawn).x = s.x := rfl
@[simp] theorem State.drawn_y : (s.drawn).y = s.y := rfl
@[simp] theorem State.drawn_sp : (s.drawn).sp = s.sp := rfl
@[simp] theorem State.drawn_pc : (s.drawn).pc = s.pc := rfl
@[simp] theorem State.drawn_p : (s.drawn).p = s.p := rfl
@[simp] theorem State.drawn_mem : (s.drawn).mem = s.mem := rfl
@[simp] theorem State.drawn_nmiPending : (s.drawn).nmiPending = s.nmiPending := rfl
@[simp] theorem State.drawn_iPoll : (s.drawn).iPoll = s.iPoll := rfl
@[simp] theorem State.drawn_cfg : (s.drawn).cfg = s.cfg := rfl
@[simp] theorem State.drawn_schedule : (s.drawn).schedule = s.schedule := rfl
@[simp] theorem State.drawn_nmibLow : (s.drawn).nmibLow = s.nmibLow := rfl
@[simp] theorem State.drawn_draws : (s.drawn).draws = s.draws + 1 := rfl
@[simp] theorem State.drawn_device : (s.drawn).device = s.device := rfl
@[simp] theorem State.drawn_events : (s.drawn).events = s.events := rfl
@[simp] theorem State.drawn_jsrOverlap : (s.drawn).jsrOverlap = s.jsrOverlap := rfl

@[simp] theorem State.record_a (c : Host.Cell) : (s.record c).a = s.a := rfl
@[simp] theorem State.record_x (c : Host.Cell) : (s.record c).x = s.x := rfl
@[simp] theorem State.record_y (c : Host.Cell) : (s.record c).y = s.y := rfl
@[simp] theorem State.record_sp (c : Host.Cell) : (s.record c).sp = s.sp := rfl
@[simp] theorem State.record_pc (c : Host.Cell) : (s.record c).pc = s.pc := rfl
@[simp] theorem State.record_p (c : Host.Cell) : (s.record c).p = s.p := rfl
@[simp] theorem State.record_mem (c : Host.Cell) : (s.record c).mem = s.mem := rfl
@[simp] theorem State.record_nmiPending (c : Host.Cell) : (s.record c).nmiPending = s.nmiPending := rfl
@[simp] theorem State.record_iPoll (c : Host.Cell) : (s.record c).iPoll = s.iPoll := rfl
@[simp] theorem State.record_cfg (c : Host.Cell) : (s.record c).cfg = s.cfg := rfl
@[simp] theorem State.record_schedule (c : Host.Cell) : (s.record c).schedule = s.schedule := rfl
@[simp] theorem State.record_nmibLow (c : Host.Cell) : (s.record c).nmibLow = s.nmibLow := rfl
@[simp] theorem State.record_draws (c : Host.Cell) : (s.record c).draws = s.draws := rfl
@[simp] theorem State.record_device (c : Host.Cell) : (s.record c).device = Config.deviceAfterWrite s.device s.draws c.1 c.2 := rfl
@[simp] theorem State.record_events (c : Host.Cell) : (s.record c).events = c :: s.events := rfl
@[simp] theorem State.record_jsrOverlap (c : Host.Cell) : (s.record c).jsrOverlap = s.jsrOverlap := rfl

@[simp] theorem State.answered_a (address : Nat) : (s.answered address).a = s.a := rfl
@[simp] theorem State.answered_x (address : Nat) : (s.answered address).x = s.x := rfl
@[simp] theorem State.answered_y (address : Nat) : (s.answered address).y = s.y := rfl
@[simp] theorem State.answered_sp (address : Nat) : (s.answered address).sp = s.sp := rfl
@[simp] theorem State.answered_pc (address : Nat) : (s.answered address).pc = s.pc := rfl
@[simp] theorem State.answered_p (address : Nat) : (s.answered address).p = s.p := rfl
@[simp] theorem State.answered_mem (address : Nat) : (s.answered address).mem = s.mem := rfl
@[simp] theorem State.answered_nmiPending (address : Nat) : (s.answered address).nmiPending = s.nmiPending := rfl
@[simp] theorem State.answered_iPoll (address : Nat) : (s.answered address).iPoll = s.iPoll := rfl
@[simp] theorem State.answered_cfg (address : Nat) : (s.answered address).cfg = s.cfg := rfl
@[simp] theorem State.answered_schedule (address : Nat) : (s.answered address).schedule = s.schedule := rfl
@[simp] theorem State.answered_nmibLow (address : Nat) : (s.answered address).nmibLow = s.nmibLow := rfl
@[simp] theorem State.answered_draws (address : Nat) : (s.answered address).draws = s.draws + 1 := rfl
@[simp] theorem State.answered_device (address : Nat) : (s.answered address).device = Config.deviceAfterRead s.device s.draws address := rfl
@[simp] theorem State.answered_events (address : Nat) : (s.answered address).events = s.events := rfl
@[simp] theorem State.answered_jsrOverlap (address : Nat) : (s.answered address).jsrOverlap = s.jsrOverlap := rfl

@[simp] theorem State.markJsr_a (b : Bool) : (s.markJsr b).a = s.a := rfl
@[simp] theorem State.markJsr_x (b : Bool) : (s.markJsr b).x = s.x := rfl
@[simp] theorem State.markJsr_y (b : Bool) : (s.markJsr b).y = s.y := rfl
@[simp] theorem State.markJsr_sp (b : Bool) : (s.markJsr b).sp = s.sp := rfl
@[simp] theorem State.markJsr_pc (b : Bool) : (s.markJsr b).pc = s.pc := rfl
@[simp] theorem State.markJsr_p (b : Bool) : (s.markJsr b).p = s.p := rfl
@[simp] theorem State.markJsr_mem (b : Bool) : (s.markJsr b).mem = s.mem := rfl
@[simp] theorem State.markJsr_nmiPending (b : Bool) : (s.markJsr b).nmiPending = s.nmiPending := rfl
@[simp] theorem State.markJsr_iPoll (b : Bool) : (s.markJsr b).iPoll = s.iPoll := rfl
@[simp] theorem State.markJsr_cfg (b : Bool) : (s.markJsr b).cfg = s.cfg := rfl
@[simp] theorem State.markJsr_schedule (b : Bool) : (s.markJsr b).schedule = s.schedule := rfl
@[simp] theorem State.markJsr_nmibLow (b : Bool) : (s.markJsr b).nmibLow = s.nmibLow := rfl
@[simp] theorem State.markJsr_draws (b : Bool) : (s.markJsr b).draws = s.draws := rfl
@[simp] theorem State.markJsr_device (b : Bool) : (s.markJsr b).device = s.device := rfl
@[simp] theorem State.markJsr_events (b : Bool) : (s.markJsr b).events = s.events := rfl
@[simp] theorem State.markJsr_jsrOverlap (b : Bool) : (s.markJsr b).jsrOverlap = (s.jsrOverlap || b) := rfl

@[simp] theorem State.setNZ_a (v : Byte) : (s.setNZ v).a = s.a := rfl
@[simp] theorem State.setNZ_x (v : Byte) : (s.setNZ v).x = s.x := rfl
@[simp] theorem State.setNZ_y (v : Byte) : (s.setNZ v).y = s.y := rfl
@[simp] theorem State.setNZ_sp (v : Byte) : (s.setNZ v).sp = s.sp := rfl
@[simp] theorem State.setNZ_pc (v : Byte) : (s.setNZ v).pc = s.pc := rfl
@[simp] theorem State.setNZ_p (v : Byte) : (s.setNZ v).p = s.p.withNZ v := rfl
@[simp] theorem State.setNZ_mem (v : Byte) : (s.setNZ v).mem = s.mem := rfl
@[simp] theorem State.setNZ_nmiPending (v : Byte) : (s.setNZ v).nmiPending = s.nmiPending := rfl
@[simp] theorem State.setNZ_iPoll (v : Byte) : (s.setNZ v).iPoll = s.iPoll := rfl
@[simp] theorem State.setNZ_cfg (v : Byte) : (s.setNZ v).cfg = s.cfg := rfl
@[simp] theorem State.setNZ_schedule (v : Byte) : (s.setNZ v).schedule = s.schedule := rfl
@[simp] theorem State.setNZ_nmibLow (v : Byte) : (s.setNZ v).nmibLow = s.nmibLow := rfl
@[simp] theorem State.setNZ_draws (v : Byte) : (s.setNZ v).draws = s.draws := rfl
@[simp] theorem State.setNZ_device (v : Byte) : (s.setNZ v).device = s.device := rfl
@[simp] theorem State.setNZ_events (v : Byte) : (s.setNZ v).events = s.events := rfl
@[simp] theorem State.setNZ_jsrOverlap (v : Byte) : (s.setNZ v).jsrOverlap = s.jsrOverlap := rfl

variable (p : Flags)

@[simp] theorem Flags.withNZ_n (b : Byte) : (p.withNZ b).n = b.getLsbD 7 := rfl
@[simp] theorem Flags.withNZ_v (b : Byte) : (p.withNZ b).v = p.v := rfl
@[simp] theorem Flags.withNZ_d (b : Byte) : (p.withNZ b).d = p.d := rfl
@[simp] theorem Flags.withNZ_i (b : Byte) : (p.withNZ b).i = p.i := rfl
@[simp] theorem Flags.withNZ_z (b : Byte) : (p.withNZ b).z = decide (b = 0x00#8) := rfl
@[simp] theorem Flags.withNZ_c (b : Byte) : (p.withNZ b).c = p.c := rfl

@[simp] theorem Flags.withAlu_n (r : AluResult) : (p.withAlu r).n = r.n := rfl
@[simp] theorem Flags.withAlu_v (r : AluResult) : (p.withAlu r).v = r.v := rfl
@[simp] theorem Flags.withAlu_d (r : AluResult) : (p.withAlu r).d = p.d := rfl
@[simp] theorem Flags.withAlu_i (r : AluResult) : (p.withAlu r).i = p.i := rfl
@[simp] theorem Flags.withAlu_z (r : AluResult) : (p.withAlu r).z = r.z := rfl
@[simp] theorem Flags.withAlu_c (r : AluResult) : (p.withAlu r).c = r.c := rfl

@[simp] theorem Flags.withCompare_n (r m : Byte) : (p.withCompare r m).n = (r - m).getLsbD 7 := rfl
@[simp] theorem Flags.withCompare_v (r m : Byte) : (p.withCompare r m).v = p.v := rfl
@[simp] theorem Flags.withCompare_d (r m : Byte) : (p.withCompare r m).d = p.d := rfl
@[simp] theorem Flags.withCompare_i (r m : Byte) : (p.withCompare r m).i = p.i := rfl
@[simp] theorem Flags.withCompare_z (r m : Byte) : (p.withCompare r m).z = decide (r = m) := rfl
@[simp] theorem Flags.withCompare_c (r m : Byte) : (p.withCompare r m).c = decide (r.toNat ≥ m.toNat) := rfl

@[simp] theorem Flags.withShift_n (r : ShiftResult) : (p.withShift r).n = r.value.getLsbD 7 := rfl
@[simp] theorem Flags.withShift_v (r : ShiftResult) : (p.withShift r).v = p.v := rfl
@[simp] theorem Flags.withShift_d (r : ShiftResult) : (p.withShift r).d = p.d := rfl
@[simp] theorem Flags.withShift_i (r : ShiftResult) : (p.withShift r).i = p.i := rfl
@[simp] theorem Flags.withShift_z (r : ShiftResult) : (p.withShift r).z = decide (r.value = 0x00#8) := rfl
@[simp] theorem Flags.withShift_c (r : ShiftResult) : (p.withShift r).c = r.out := rfl

end Sys2Proof.Machine
end

