-- ==== Sys2Proof/Laws/Ops.lean ====
section
/-! SUPPORT. What the operations on memory and the stack do: for each, the fields it keeps (simp), and one lemma that says what it does to the rest. -/

namespace Sys2Proof.Machine

variable (s : State)

/-! ## Reading -/

/-- A read changes nothing but the number of free values drawn and the devices' state. -/
theorem State.touch_eq (a : Addr) :
    s.touch a = { s with draws := (s.touch a).draws, device := (s.touch a).device } := by
  unfold State.touch; split <;> rfl

@[simp] theorem State.touch_a (a : Addr) : (s.touch a).a = s.a := by unfold State.touch; split <;> rfl
@[simp] theorem State.touch_x (a : Addr) : (s.touch a).x = s.x := by unfold State.touch; split <;> rfl
@[simp] theorem State.touch_y (a : Addr) : (s.touch a).y = s.y := by unfold State.touch; split <;> rfl
@[simp] theorem State.touch_sp (a : Addr) : (s.touch a).sp = s.sp := by unfold State.touch; split <;> rfl
@[simp] theorem State.touch_pc (a : Addr) : (s.touch a).pc = s.pc := by unfold State.touch; split <;> rfl
@[simp] theorem State.touch_p (a : Addr) : (s.touch a).p = s.p := by unfold State.touch; split <;> rfl
@[simp] theorem State.touch_mem (a : Addr) : (s.touch a).mem = s.mem := by unfold State.touch; split <;> rfl
@[simp] theorem State.touch_nmiPending (a : Addr) : (s.touch a).nmiPending = s.nmiPending := by unfold State.touch; split <;> rfl
@[simp] theorem State.touch_iPoll (a : Addr) : (s.touch a).iPoll = s.iPoll := by unfold State.touch; split <;> rfl
@[simp] theorem State.touch_cfg (a : Addr) : (s.touch a).cfg = s.cfg := by unfold State.touch; split <;> rfl
@[simp] theorem State.touch_schedule (a : Addr) : (s.touch a).schedule = s.schedule := by unfold State.touch; split <;> rfl
@[simp] theorem State.touch_nmibLow (a : Addr) : (s.touch a).nmibLow = s.nmibLow := by unfold State.touch; split <;> rfl
@[simp] theorem State.touch_events (a : Addr) : (s.touch a).events = s.events := by unfold State.touch; split <;> rfl
@[simp] theorem State.touch_jsrOverlap (a : Addr) : (s.touch a).jsrOverlap = s.jsrOverlap := by unfold State.touch; split <;> rfl

/-- A plain address gives its stored byte and leaves the state alone. -/
theorem State.peek_plain {a : Addr} (h : s.Plain a) : s.peek a = s.byteAt a := by
  rcases h with h | h <;> simp [State.peek, h]

theorem State.touch_plain {a : Addr} (h : s.Plain a) : s.touch a = s := by
  rcases h with h | h <;> simp [State.touch, h]

/-- Reading a plain address. -/
theorem memRead_plain {a : Addr} (h : s.Plain a) : memRead a s = (s.byteAt a, s) := by
  simp [memRead, s.peek_plain h, s.touch_plain h]

@[simp] theorem memRead_fst (a : Addr) : (memRead a s).1 = s.peek a := rfl

@[simp] theorem memRead_snd (a : Addr) : (memRead a s).2 = s.touch a := rfl

/-- Which address is what depends on the platform's map alone. -/
theorem State.kindAt_congr {s t : State} (h : t.cfg = s.cfg) (a : Addr) :
    t.kindAt a = s.kindAt a := by
  simp [State.kindAt, h]

/-! What an update of a register, of the flags or of the counters leaves of the map and of memory. -/

@[simp] theorem State.setA_kindAt (v : Byte) (a : Addr) : (s.setA v).kindAt a = s.kindAt a := rfl
@[simp] theorem State.setA_peek (v : Byte) (a : Addr) : (s.setA v).peek a = s.peek a := rfl
@[simp] theorem State.setA_touch (v : Byte) (a : Addr) : (s.setA v).touch a = (s.touch a).setA v := by
  simp only [State.touch, State.setA_kindAt]; split <;> rfl
@[simp] theorem State.setX_kindAt (v : Byte) (a : Addr) : (s.setX v).kindAt a = s.kindAt a := rfl
@[simp] theorem State.setX_peek (v : Byte) (a : Addr) : (s.setX v).peek a = s.peek a := rfl
@[simp] theorem State.setX_touch (v : Byte) (a : Addr) : (s.setX v).touch a = (s.touch a).setX v := by
  simp only [State.touch, State.setX_kindAt]; split <;> rfl
@[simp] theorem State.setY_kindAt (v : Byte) (a : Addr) : (s.setY v).kindAt a = s.kindAt a := rfl
@[simp] theorem State.setY_peek (v : Byte) (a : Addr) : (s.setY v).peek a = s.peek a := rfl
@[simp] theorem State.setY_touch (v : Byte) (a : Addr) : (s.setY v).touch a = (s.touch a).setY v := by
  simp only [State.touch, State.setY_kindAt]; split <;> rfl
@[simp] theorem State.setSp_kindAt (v : Byte) (a : Addr) : (s.setSp v).kindAt a = s.kindAt a := rfl
@[simp] theorem State.setSp_peek (v : Byte) (a : Addr) : (s.setSp v).peek a = s.peek a := rfl
@[simp] theorem State.setSp_touch (v : Byte) (a : Addr) : (s.setSp v).touch a = (s.touch a).setSp v := by
  simp only [State.touch, State.setSp_kindAt]; split <;> rfl
@[simp] theorem State.setPc_kindAt (w : Addr) (a : Addr) : (s.setPc w).kindAt a = s.kindAt a := rfl
@[simp] theorem State.setPc_peek (w : Addr) (a : Addr) : (s.setPc w).peek a = s.peek a := rfl
@[simp] theorem State.setPc_touch (w : Addr) (a : Addr) : (s.setPc w).touch a = (s.touch a).setPc w := by
  simp only [State.touch, State.setPc_kindAt]; split <;> rfl
@[simp] theorem State.setP_kindAt (p : Flags) (a : Addr) : (s.setP p).kindAt a = s.kindAt a := rfl
@[simp] theorem State.setP_peek (p : Flags) (a : Addr) : (s.setP p).peek a = s.peek a := rfl
@[simp] theorem State.setP_touch (p : Flags) (a : Addr) : (s.setP p).touch a = (s.touch a).setP p := by
  simp only [State.touch, State.setP_kindAt]; split <;> rfl
@[simp] theorem State.markJsr_kindAt (b : Bool) (a : Addr) : (s.markJsr b).kindAt a = s.kindAt a := rfl
@[simp] theorem State.markJsr_peek (b : Bool) (a : Addr) : (s.markJsr b).peek a = s.peek a := rfl
@[simp] theorem State.markJsr_touch (b : Bool) (a : Addr) : (s.markJsr b).touch a = (s.touch a).markJsr b := by
  simp only [State.touch, State.markJsr_kindAt]; split <;> rfl
@[simp] theorem State.setNZ_kindAt (v : Byte) (a : Addr) : (s.setNZ v).kindAt a = s.kindAt a := rfl
@[simp] theorem State.setNZ_peek (v : Byte) (a : Addr) : (s.setNZ v).peek a = s.peek a := rfl

@[simp] theorem readPair_snd_a (low high : Addr) : ((readPair low high s).2).a = s.a := by simp [readPair]
@[simp] theorem readPair_snd_x (low high : Addr) : ((readPair low high s).2).x = s.x := by simp [readPair]
@[simp] theorem readPair_snd_y (low high : Addr) : ((readPair low high s).2).y = s.y := by simp [readPair]
@[simp] theorem readPair_snd_sp (low high : Addr) : ((readPair low high s).2).sp = s.sp := by simp [readPair]
@[simp] theorem readPair_snd_pc (low high : Addr) : ((readPair low high s).2).pc = s.pc := by simp [readPair]
@[simp] theorem readPair_snd_p (low high : Addr) : ((readPair low high s).2).p = s.p := by simp [readPair]
@[simp] theorem readPair_snd_mem (low high : Addr) : ((readPair low high s).2).mem = s.mem := by simp [readPair]
@[simp] theorem readPair_snd_nmiPending (low high : Addr) : ((readPair low high s).2).nmiPending = s.nmiPending := by simp [readPair]
@[simp] theorem readPair_snd_iPoll (low high : Addr) : ((readPair low high s).2).iPoll = s.iPoll := by simp [readPair]
@[simp] theorem readPair_snd_cfg (low high : Addr) : ((readPair low high s).2).cfg = s.cfg := by simp [readPair]
@[simp] theorem readPair_snd_schedule (low high : Addr) : ((readPair low high s).2).schedule = s.schedule := by simp [readPair]
@[simp] theorem readPair_snd_nmibLow (low high : Addr) : ((readPair low high s).2).nmibLow = s.nmibLow := by simp [readPair]
@[simp] theorem readPair_snd_events (low high : Addr) : ((readPair low high s).2).events = s.events := by simp [readPair]
@[simp] theorem readPair_snd_jsrOverlap (low high : Addr) : ((readPair low high s).2).jsrOverlap = s.jsrOverlap := by simp [readPair]

@[simp] theorem read16_snd_a (a : Addr) : ((read16 a s).2).a = s.a := by simp [read16]
@[simp] theorem read16_snd_x (a : Addr) : ((read16 a s).2).x = s.x := by simp [read16]
@[simp] theorem read16_snd_y (a : Addr) : ((read16 a s).2).y = s.y := by simp [read16]
@[simp] theorem read16_snd_sp (a : Addr) : ((read16 a s).2).sp = s.sp := by simp [read16]
@[simp] theorem read16_snd_pc (a : Addr) : ((read16 a s).2).pc = s.pc := by simp [read16]
@[simp] theorem read16_snd_p (a : Addr) : ((read16 a s).2).p = s.p := by simp [read16]
@[simp] theorem read16_snd_mem (a : Addr) : ((read16 a s).2).mem = s.mem := by simp [read16]
@[simp] theorem read16_snd_nmiPending (a : Addr) : ((read16 a s).2).nmiPending = s.nmiPending := by simp [read16]
@[simp] theorem read16_snd_iPoll (a : Addr) : ((read16 a s).2).iPoll = s.iPoll := by simp [read16]
@[simp] theorem read16_snd_cfg (a : Addr) : ((read16 a s).2).cfg = s.cfg := by simp [read16]
@[simp] theorem read16_snd_schedule (a : Addr) : ((read16 a s).2).schedule = s.schedule := by simp [read16]
@[simp] theorem read16_snd_nmibLow (a : Addr) : ((read16 a s).2).nmibLow = s.nmibLow := by simp [read16]
@[simp] theorem read16_snd_events (a : Addr) : ((read16 a s).2).events = s.events := by simp [read16]
@[simp] theorem read16_snd_jsrOverlap (a : Addr) : ((read16 a s).2).jsrOverlap = s.jsrOverlap := by simp [read16]

@[simp] theorem read16ZeroPage_snd_a (z : Byte) : ((read16ZeroPage z s).2).a = s.a := by simp [read16ZeroPage]
@[simp] theorem read16ZeroPage_snd_x (z : Byte) : ((read16ZeroPage z s).2).x = s.x := by simp [read16ZeroPage]
@[simp] theorem read16ZeroPage_snd_y (z : Byte) : ((read16ZeroPage z s).2).y = s.y := by simp [read16ZeroPage]
@[simp] theorem read16ZeroPage_snd_sp (z : Byte) : ((read16ZeroPage z s).2).sp = s.sp := by simp [read16ZeroPage]
@[simp] theorem read16ZeroPage_snd_pc (z : Byte) : ((read16ZeroPage z s).2).pc = s.pc := by simp [read16ZeroPage]
@[simp] theorem read16ZeroPage_snd_p (z : Byte) : ((read16ZeroPage z s).2).p = s.p := by simp [read16ZeroPage]
@[simp] theorem read16ZeroPage_snd_mem (z : Byte) : ((read16ZeroPage z s).2).mem = s.mem := by simp [read16ZeroPage]
@[simp] theorem read16ZeroPage_snd_nmiPending (z : Byte) : ((read16ZeroPage z s).2).nmiPending = s.nmiPending := by simp [read16ZeroPage]
@[simp] theorem read16ZeroPage_snd_iPoll (z : Byte) : ((read16ZeroPage z s).2).iPoll = s.iPoll := by simp [read16ZeroPage]
@[simp] theorem read16ZeroPage_snd_cfg (z : Byte) : ((read16ZeroPage z s).2).cfg = s.cfg := by simp [read16ZeroPage]
@[simp] theorem read16ZeroPage_snd_schedule (z : Byte) : ((read16ZeroPage z s).2).schedule = s.schedule := by simp [read16ZeroPage]
@[simp] theorem read16ZeroPage_snd_nmibLow (z : Byte) : ((read16ZeroPage z s).2).nmibLow = s.nmibLow := by simp [read16ZeroPage]
@[simp] theorem read16ZeroPage_snd_events (z : Byte) : ((read16ZeroPage z s).2).events = s.events := by simp [read16ZeroPage]
@[simp] theorem read16ZeroPage_snd_jsrOverlap (z : Byte) : ((read16ZeroPage z s).2).jsrOverlap = s.jsrOverlap := by simp [read16ZeroPage]

@[simp] theorem read16PageWrap_snd_a (a : Addr) : ((read16PageWrap a s).2).a = s.a := by simp [read16PageWrap]
@[simp] theorem read16PageWrap_snd_x (a : Addr) : ((read16PageWrap a s).2).x = s.x := by simp [read16PageWrap]
@[simp] theorem read16PageWrap_snd_y (a : Addr) : ((read16PageWrap a s).2).y = s.y := by simp [read16PageWrap]
@[simp] theorem read16PageWrap_snd_sp (a : Addr) : ((read16PageWrap a s).2).sp = s.sp := by simp [read16PageWrap]
@[simp] theorem read16PageWrap_snd_pc (a : Addr) : ((read16PageWrap a s).2).pc = s.pc := by simp [read16PageWrap]
@[simp] theorem read16PageWrap_snd_p (a : Addr) : ((read16PageWrap a s).2).p = s.p := by simp [read16PageWrap]
@[simp] theorem read16PageWrap_snd_mem (a : Addr) : ((read16PageWrap a s).2).mem = s.mem := by simp [read16PageWrap]
@[simp] theorem read16PageWrap_snd_nmiPending (a : Addr) : ((read16PageWrap a s).2).nmiPending = s.nmiPending := by simp [read16PageWrap]
@[simp] theorem read16PageWrap_snd_iPoll (a : Addr) : ((read16PageWrap a s).2).iPoll = s.iPoll := by simp [read16PageWrap]
@[simp] theorem read16PageWrap_snd_cfg (a : Addr) : ((read16PageWrap a s).2).cfg = s.cfg := by simp [read16PageWrap]
@[simp] theorem read16PageWrap_snd_schedule (a : Addr) : ((read16PageWrap a s).2).schedule = s.schedule := by simp [read16PageWrap]
@[simp] theorem read16PageWrap_snd_nmibLow (a : Addr) : ((read16PageWrap a s).2).nmibLow = s.nmibLow := by simp [read16PageWrap]
@[simp] theorem read16PageWrap_snd_events (a : Addr) : ((read16PageWrap a s).2).events = s.events := by simp [read16PageWrap]
@[simp] theorem read16PageWrap_snd_jsrOverlap (a : Addr) : ((read16PageWrap a s).2).jsrOverlap = s.jsrOverlap := by simp [read16PageWrap]

@[simp] theorem State.touch_kindAt (a b : Addr) : (s.touch a).kindAt b = s.kindAt b :=
  State.kindAt_congr (by simp) b

/-- Two plain bytes as a word: the low byte's address first. -/
theorem readPair_plain {low high : Addr} (hl : s.Plain low) (hh : s.Plain high) :
    readPair low high s = (joinBytes (s.byteAt high) (s.byteAt low), s) := by
  simp [readPair, memRead, s.peek_plain hl, s.touch_plain hl, s.peek_plain hh, s.touch_plain hh]

/-- A read sees the map, memory at its address, the number of free values drawn and the devices'
state. -/
theorem State.peek_congr {s t : State} {a : Addr} (hc : t.cfg = s.cfg)
    (hm : t.byteAt a = s.byteAt a) (hd : t.draws = s.draws) (hv : t.device = s.device) :
    t.peek a = s.peek a := by
  have hk := State.kindAt_congr hc a
  simp only [State.peek, hk, hd, hv]
  split <;> first | exact hm | rfl

/-- What a read leaves of the counter and of the devices depends on these and the map alone. -/
theorem State.touch_congr {s t : State} (a : Addr) (hc : t.cfg = s.cfg) (hd : t.draws = s.draws)
    (hv : t.device = s.device) :
    (t.touch a).draws = (s.touch a).draws ∧ (t.touch a).device = (s.touch a).device := by
  have hk := State.kindAt_congr hc a
  simp only [State.touch, hk]
  split <;> simp [hd, hv]

/-- A word read sees the map, memory at its two addresses, the number of free values drawn and the
devices' state. -/
theorem read16_congr {s t : State} {a : Addr} (hc : t.cfg = s.cfg)
    (hl : t.byteAt a = s.byteAt a) (hh : t.byteAt (a + 1#16) = s.byteAt (a + 1#16))
    (hd : t.draws = s.draws) (hv : t.device = s.device) :
    (read16 a t).1 = (read16 a s).1 ∧ (read16 a t).2.draws = (read16 a s).2.draws ∧
      (read16 a t).2.device = (read16 a s).2.device := by
  have h1 := State.touch_congr a hc hd hv
  have hc' : (t.touch a).cfg = (s.touch a).cfg := by simp [hc]
  have h2 := State.touch_congr (a + 1#16) hc' h1.1 h1.2
  refine ⟨?_, h2.1, h2.2⟩
  have hl' := State.peek_congr hc hl hd hv
  have hh' : (t.touch a).peek (a + 1#16) = (s.touch a).peek (a + 1#16) :=
    State.peek_congr hc' (by simpa [State.byteAt] using hh) h1.1 h1.2
  simp only [read16, readPair, memRead_fst, memRead_snd, hl', hh']

/-! ## Writing -/

@[simp] theorem memWrite_a (a : Addr) (v : Byte) : (memWrite a v s).a = s.a := by unfold memWrite; split <;> rfl
@[simp] theorem memWrite_x (a : Addr) (v : Byte) : (memWrite a v s).x = s.x := by unfold memWrite; split <;> rfl
@[simp] theorem memWrite_y (a : Addr) (v : Byte) : (memWrite a v s).y = s.y := by unfold memWrite; split <;> rfl
@[simp] theorem memWrite_sp (a : Addr) (v : Byte) : (memWrite a v s).sp = s.sp := by unfold memWrite; split <;> rfl
@[simp] theorem memWrite_pc (a : Addr) (v : Byte) : (memWrite a v s).pc = s.pc := by unfold memWrite; split <;> rfl
@[simp] theorem memWrite_p (a : Addr) (v : Byte) : (memWrite a v s).p = s.p := by unfold memWrite; split <;> rfl
@[simp] theorem memWrite_nmiPending (a : Addr) (v : Byte) : (memWrite a v s).nmiPending = s.nmiPending := by unfold memWrite; split <;> rfl
@[simp] theorem memWrite_iPoll (a : Addr) (v : Byte) : (memWrite a v s).iPoll = s.iPoll := by unfold memWrite; split <;> rfl
@[simp] theorem memWrite_cfg (a : Addr) (v : Byte) : (memWrite a v s).cfg = s.cfg := by unfold memWrite; split <;> rfl
@[simp] theorem memWrite_schedule (a : Addr) (v : Byte) : (memWrite a v s).schedule = s.schedule := by unfold memWrite; split <;> rfl
@[simp] theorem memWrite_nmibLow (a : Addr) (v : Byte) : (memWrite a v s).nmibLow = s.nmibLow := by unfold memWrite; split <;> rfl
@[simp] theorem memWrite_draws (a : Addr) (v : Byte) : (memWrite a v s).draws = s.draws := by unfold memWrite; split <;> rfl
@[simp] theorem memWrite_jsrOverlap (a : Addr) (v : Byte) : (memWrite a v s).jsrOverlap = s.jsrOverlap := by unfold memWrite; split <;> rfl

theorem memWrite_ram {a : Addr} (v : Byte) (h : s.kindAt a = .ram) :
    memWrite a v s = s.setMem (s.mem.write a.toNat v) := by
  simp [memWrite, h]

theorem memWrite_not_ram {a : Addr} (v : Byte) (h : s.kindAt a ≠ .ram) :
    memWrite a v s = s.record (a.toNat, v) := by
  unfold memWrite
  split
  · exact absurd ‹_› h
  all_goals rfl

/-- Different addresses have different numbers. -/
theorem toNat_ne_of_ne {a b : Addr} (h : b ≠ a) : b.toNat ≠ a.toNat :=
  fun he => h (BitVec.eq_of_toNat_eq he)

/-- What one write does to the devices (R48, U6). -/
@[simp] theorem memWrite_device (a : Addr) (v : Byte) :
    (memWrite a v s).device = s.deviceAfter a v := by
  unfold memWrite State.deviceAfter
  split <;> simp_all

/-- A write to ram does not reach the devices. -/
theorem State.deviceAfter_ram {a : Addr} (v : Byte) (h : s.kindAt a = .ram) :
    s.deviceAfter a v = s.device := by
  simp [State.deviceAfter, h]

/-- What a write does to the devices depends on their state, the counter and the map alone. -/
theorem State.deviceAfter_congr {s t : State} (hc : t.cfg = s.cfg) (hd : t.draws = s.draws)
    (hv : t.device = s.device) (a : Addr) (v : Byte) : t.deviceAfter a v = s.deviceAfter a v := by
  simp [State.deviceAfter, State.kindAt_congr hc a, hd, hv]

/-- What one write does (R48, U6). -/
theorem memWrite_wroteByte (a : Addr) (v : Byte) : WroteByte s (memWrite a v s) a v := by
  by_cases h : s.kindAt a = .ram
  · rw [memWrite_ram s v h]
    refine ⟨fun b hb => ?_, fun _ => ⟨?_, rfl⟩, fun hn => absurd h hn⟩
    · exact Memory.read_write_other s.mem v (toNat_ne_of_ne hb)
    · exact Memory.read_write_same s.mem a.toNat v
  · rw [memWrite_not_ram s v h]
    exact ⟨fun b _ => rfl, fun hr => absurd hr h, fun _ => ⟨rfl, rfl⟩⟩

/-- A write keeps the canonical form of memory. -/
theorem memWrite_mem_wf (a : Addr) (v : Byte) (h : s.mem.wf = true) :
    (memWrite a v s).mem.wf = true := by
  unfold memWrite
  split
  · exact Memory.wf_write s.mem a.toNat v (by have := a.isLt; omega) h
  all_goals exact h

/-- A write keeps a state well-formed. -/
theorem memWrite_wf (a : Addr) (v : Byte) (h : s.wf = true) : (memWrite a v s).wf = true := by
  have hw : s.mem.wf = true := by
    simp only [State.wf, Bool.and_eq_true] at h; exact h.1
  by_cases hr : s.kindAt a = .ram
  · have := memWrite_mem_wf s a v hw
    rw [memWrite_ram s v hr] at this ⊢
    simp only [State.wf, Bool.and_eq_true] at h ⊢
    exact ⟨this, h.2⟩
  · rw [memWrite_not_ram s v hr]
    simp only [State.wf, Bool.and_eq_true, State.record_mem, State.record_events, State.record_cfg,
      List.all_cons] at h ⊢
    refine ⟨h.1, ⟨?_, ?_⟩, h.2⟩
    · exact decide_eq_true a.isLt
    · exact decide_eq_true hr

/-! ## The stack -/

/-- The stack stays in page one (R42). -/
theorem stackAddr_toNat (sp : Byte) : (stackAddr sp).toNat = 256 + sp.toNat := by
  have := sp.isLt
  simp [stackAddr, joinBytes]
  omega

@[simp] theorem push8_a (v : Byte) : (push8 v s).a = s.a := by simp [push8]
@[simp] theorem push8_x (v : Byte) : (push8 v s).x = s.x := by simp [push8]
@[simp] theorem push8_y (v : Byte) : (push8 v s).y = s.y := by simp [push8]
@[simp] theorem push8_pc (v : Byte) : (push8 v s).pc = s.pc := by simp [push8]
@[simp] theorem push8_p (v : Byte) : (push8 v s).p = s.p := by simp [push8]
@[simp] theorem push8_nmiPending (v : Byte) : (push8 v s).nmiPending = s.nmiPending := by simp [push8]
@[simp] theorem push8_iPoll (v : Byte) : (push8 v s).iPoll = s.iPoll := by simp [push8]
@[simp] theorem push8_cfg (v : Byte) : (push8 v s).cfg = s.cfg := by simp [push8]
@[simp] theorem push8_schedule (v : Byte) : (push8 v s).schedule = s.schedule := by simp [push8]
@[simp] theorem push8_nmibLow (v : Byte) : (push8 v s).nmibLow = s.nmibLow := by simp [push8]
@[simp] theorem push8_draws (v : Byte) : (push8 v s).draws = s.draws := by simp [push8]
@[simp] theorem push8_device (v : Byte) :
    (push8 v s).device = s.deviceAfter (stackAddr s.sp) v := by simp [push8]
@[simp] theorem push8_jsrOverlap (v : Byte) : (push8 v s).jsrOverlap = s.jsrOverlap := by simp [push8]

@[simp] theorem push8_sp (v : Byte) : (push8 v s).sp = s.sp - 1#8 := by simp [push8]

/-- A push writes one byte at `0x0100 + S` (R8). -/
theorem push8_wroteByte (v : Byte) : WroteByte s (push8 v s) (stackAddr s.sp) v :=
  memWrite_wroteByte s (stackAddr s.sp) v

@[simp] theorem pull8_snd_a : ((pull8 s).2).a = s.a := by simp [pull8]
@[simp] theorem pull8_snd_x : ((pull8 s).2).x = s.x := by simp [pull8]
@[simp] theorem pull8_snd_y : ((pull8 s).2).y = s.y := by simp [pull8]
@[simp] theorem pull8_snd_pc : ((pull8 s).2).pc = s.pc := by simp [pull8]
@[simp] theorem pull8_snd_p : ((pull8 s).2).p = s.p := by simp [pull8]
@[simp] theorem pull8_snd_mem : ((pull8 s).2).mem = s.mem := by simp [pull8]
@[simp] theorem pull8_snd_nmiPending : ((pull8 s).2).nmiPending = s.nmiPending := by simp [pull8]
@[simp] theorem pull8_snd_iPoll : ((pull8 s).2).iPoll = s.iPoll := by simp [pull8]
@[simp] theorem pull8_snd_cfg : ((pull8 s).2).cfg = s.cfg := by simp [pull8]
@[simp] theorem pull8_snd_schedule : ((pull8 s).2).schedule = s.schedule := by simp [pull8]
@[simp] theorem pull8_snd_nmibLow : ((pull8 s).2).nmibLow = s.nmibLow := by simp [pull8]
@[simp] theorem pull8_snd_events : ((pull8 s).2).events = s.events := by simp [pull8]
@[simp] theorem pull8_snd_jsrOverlap : ((pull8 s).2).jsrOverlap = s.jsrOverlap := by simp [pull8]

@[simp] theorem pull8_snd_sp : (pull8 s).2.sp = s.sp + 1#8 := by simp [pull8]

@[simp] theorem push16_a (w : Addr) : (push16 w s).a = s.a := by simp [push16]
@[simp] theorem push16_x (w : Addr) : (push16 w s).x = s.x := by simp [push16]
@[simp] theorem push16_y (w : Addr) : (push16 w s).y = s.y := by simp [push16]
@[simp] theorem push16_pc (w : Addr) : (push16 w s).pc = s.pc := by simp [push16]
@[simp] theorem push16_p (w : Addr) : (push16 w s).p = s.p := by simp [push16]
@[simp] theorem push16_nmiPending (w : Addr) : (push16 w s).nmiPending = s.nmiPending := by simp [push16]
@[simp] theorem push16_iPoll (w : Addr) : (push16 w s).iPoll = s.iPoll := by simp [push16]
@[simp] theorem push16_cfg (w : Addr) : (push16 w s).cfg = s.cfg := by simp [push16]
@[simp] theorem push16_schedule (w : Addr) : (push16 w s).schedule = s.schedule := by simp [push16]
@[simp] theorem push16_nmibLow (w : Addr) : (push16 w s).nmibLow = s.nmibLow := by simp [push16]
@[simp] theorem push16_draws (w : Addr) : (push16 w s).draws = s.draws := by simp [push16]
@[simp] theorem push16_jsrOverlap (w : Addr) : (push16 w s).jsrOverlap = s.jsrOverlap := by simp [push16]

@[simp] theorem push16_sp (w : Addr) : (push16 w s).sp = s.sp - 2#8 := by
  simp only [push16, push8_sp]; bv_omega

@[simp] theorem pull16_snd_a : ((pull16 s).2).a = s.a := by simp [pull16]
@[simp] theorem pull16_snd_x : ((pull16 s).2).x = s.x := by simp [pull16]
@[simp] theorem pull16_snd_y : ((pull16 s).2).y = s.y := by simp [pull16]
@[simp] theorem pull16_snd_pc : ((pull16 s).2).pc = s.pc := by simp [pull16]
@[simp] theorem pull16_snd_p : ((pull16 s).2).p = s.p := by simp [pull16]
@[simp] theorem pull16_snd_mem : ((pull16 s).2).mem = s.mem := by simp [pull16]
@[simp] theorem pull16_snd_nmiPending : ((pull16 s).2).nmiPending = s.nmiPending := by simp [pull16]
@[simp] theorem pull16_snd_iPoll : ((pull16 s).2).iPoll = s.iPoll := by simp [pull16]
@[simp] theorem pull16_snd_cfg : ((pull16 s).2).cfg = s.cfg := by simp [pull16]
@[simp] theorem pull16_snd_schedule : ((pull16 s).2).schedule = s.schedule := by simp [pull16]
@[simp] theorem pull16_snd_nmibLow : ((pull16 s).2).nmibLow = s.nmibLow := by simp [pull16]
@[simp] theorem pull16_snd_events : ((pull16 s).2).events = s.events := by simp [pull16]
@[simp] theorem pull16_snd_jsrOverlap : ((pull16 s).2).jsrOverlap = s.jsrOverlap := by simp [pull16]

@[simp] theorem pull16_snd_sp : (pull16 s).2.sp = s.sp + 2#8 := by
  simp only [pull16, pull8_snd_sp]; bv_omega

/-- Two different stack pointers are two different addresses. -/
theorem stackAddr_inj {p q : Byte} (h : stackAddr p = stackAddr q) : p = q := by
  have hp := stackAddr_toNat p
  rw [h, stackAddr_toNat q] at hp
  exact BitVec.eq_of_toNat_eq (by omega)

/-- On a stack in ram a push stores its byte. -/
theorem push8_byteAt_same (v : Byte) (h : s.kindAt (stackAddr s.sp) = .ram) :
    (push8 v s).byteAt (stackAddr s.sp) = v :=
  ((push8_wroteByte s v).2.1 h).1

/-- A push leaves every other address alone. -/
theorem push8_byteAt_other (v : Byte) {b : Addr} (h : b ≠ stackAddr s.sp) :
    (push8 v s).byteAt b = s.byteAt b :=
  (push8_wroteByte s v).1 b h

/-- A pull from a stack in plain memory. -/
theorem pull8_plain (h : s.Plain (stackAddr (s.sp + 1#8))) :
    pull8 s = (s.byteAt (stackAddr (s.sp + 1#8)), s.setSp (s.sp + 1#8)) := by
  unfold pull8
  rw [memRead_plain (s.setSp (s.sp + 1#8)) (a := stackAddr (s.sp + 1#8)) h]
  rfl

/-- A pull undoes a push on a stack in ram, but for the byte it leaves in memory (R8). -/
theorem pull8_push8 (v : Byte) (h : s.PageOneRam) :
    pull8 (push8 v s) = (v, (push8 v s).setSp s.sp) := by
  have hs : (push8 v s).sp + 1#8 = s.sp := by simp
  have hk : (push8 v s).kindAt (stackAddr s.sp) = .ram :=
    (State.kindAt_congr (push8_cfg s v) _).trans (h s.sp)
  have hp := pull8_plain (push8 v s) (by rw [hs]; exact Or.inl hk)
  rw [hs] at hp
  rw [hp, push8_byteAt_same s v (h s.sp)]

/-- Page one stays ram through a push. -/
theorem push8_pageOneRam (v : Byte) (h : s.PageOneRam) : (push8 v s).PageOneRam :=
  fun sp => (State.kindAt_congr (push8_cfg s v) _).trans (h sp)

end Sys2Proof.Machine
end

