-- ==== Sys2Proof/Laws/Operands.lean ====
section
/-! SUPPORT. What the addressing modes and the exception operations do: the fields each keeps (simp), and one lemma for the rest. -/

namespace Sys2Proof.Machine

variable (s : State)

@[simp] theorem effAddr_snd_a (m : MemMode) : ((effAddr m s).2).a = s.a := by cases m <;> simp [effAddr]
@[simp] theorem effAddr_snd_x (m : MemMode) : ((effAddr m s).2).x = s.x := by cases m <;> simp [effAddr]
@[simp] theorem effAddr_snd_y (m : MemMode) : ((effAddr m s).2).y = s.y := by cases m <;> simp [effAddr]
@[simp] theorem effAddr_snd_sp (m : MemMode) : ((effAddr m s).2).sp = s.sp := by cases m <;> simp [effAddr]
@[simp] theorem effAddr_snd_pc (m : MemMode) : ((effAddr m s).2).pc = s.pc := by cases m <;> simp [effAddr]
@[simp] theorem effAddr_snd_p (m : MemMode) : ((effAddr m s).2).p = s.p := by cases m <;> simp [effAddr]
@[simp] theorem effAddr_snd_mem (m : MemMode) : ((effAddr m s).2).mem = s.mem := by cases m <;> simp [effAddr]
@[simp] theorem effAddr_snd_nmiPending (m : MemMode) : ((effAddr m s).2).nmiPending = s.nmiPending := by cases m <;> simp [effAddr]
@[simp] theorem effAddr_snd_iPoll (m : MemMode) : ((effAddr m s).2).iPoll = s.iPoll := by cases m <;> simp [effAddr]
@[simp] theorem effAddr_snd_cfg (m : MemMode) : ((effAddr m s).2).cfg = s.cfg := by cases m <;> simp [effAddr]
@[simp] theorem effAddr_snd_schedule (m : MemMode) : ((effAddr m s).2).schedule = s.schedule := by cases m <;> simp [effAddr]
@[simp] theorem effAddr_snd_nmibLow (m : MemMode) : ((effAddr m s).2).nmibLow = s.nmibLow := by cases m <;> simp [effAddr]
@[simp] theorem effAddr_snd_events (m : MemMode) : ((effAddr m s).2).events = s.events := by cases m <;> simp [effAddr]
@[simp] theorem effAddr_snd_jsrOverlap (m : MemMode) : ((effAddr m s).2).jsrOverlap = s.jsrOverlap := by cases m <;> simp [effAddr]

/-- An effective address changes nothing but the number of free values drawn and the devices' state. -/
theorem effAddr_snd_eq (m : MemMode) :
    (effAddr m s).2 =
      { s with draws := (effAddr m s).2.draws, device := (effAddr m s).2.device } := by
  rw [State.mk.injEq]; simp

@[simp] theorem readOperand_snd_a (o : Src) : ((readOperand o s).2).a = s.a := by cases o <;> simp [readOperand]
@[simp] theorem readOperand_snd_x (o : Src) : ((readOperand o s).2).x = s.x := by cases o <;> simp [readOperand]
@[simp] theorem readOperand_snd_y (o : Src) : ((readOperand o s).2).y = s.y := by cases o <;> simp [readOperand]
@[simp] theorem readOperand_snd_sp (o : Src) : ((readOperand o s).2).sp = s.sp := by cases o <;> simp [readOperand]
@[simp] theorem readOperand_snd_pc (o : Src) : ((readOperand o s).2).pc = s.pc := by cases o <;> simp [readOperand]
@[simp] theorem readOperand_snd_p (o : Src) : ((readOperand o s).2).p = s.p := by cases o <;> simp [readOperand]
@[simp] theorem readOperand_snd_mem (o : Src) : ((readOperand o s).2).mem = s.mem := by cases o <;> simp [readOperand]
@[simp] theorem readOperand_snd_nmiPending (o : Src) : ((readOperand o s).2).nmiPending = s.nmiPending := by cases o <;> simp [readOperand]
@[simp] theorem readOperand_snd_iPoll (o : Src) : ((readOperand o s).2).iPoll = s.iPoll := by cases o <;> simp [readOperand]
@[simp] theorem readOperand_snd_cfg (o : Src) : ((readOperand o s).2).cfg = s.cfg := by cases o <;> simp [readOperand]
@[simp] theorem readOperand_snd_schedule (o : Src) : ((readOperand o s).2).schedule = s.schedule := by cases o <;> simp [readOperand]
@[simp] theorem readOperand_snd_nmibLow (o : Src) : ((readOperand o s).2).nmibLow = s.nmibLow := by cases o <;> simp [readOperand]
@[simp] theorem readOperand_snd_events (o : Src) : ((readOperand o s).2).events = s.events := by cases o <;> simp [readOperand]
@[simp] theorem readOperand_snd_jsrOverlap (o : Src) : ((readOperand o s).2).jsrOverlap = s.jsrOverlap := by cases o <;> simp [readOperand]

/-- Reading an operand changes nothing but the number of free values drawn and the devices' state. -/
theorem readOperand_snd_eq (o : Src) :
    (readOperand o s).2 =
      { s with draws := (readOperand o s).2.draws, device := (readOperand o s).2.device } := by
  rw [State.mk.injEq]; simp

theorem readOperand_imm (v : Byte) : readOperand (.imm v) s = (v, s) := rfl

/-- A memory operand whose pointer and datum are plain is the stored byte. -/
theorem readOperand_mem_plain (m : MemMode) (he : (effAddr m s).2 = s)
    (h : s.Plain (effAddr m s).1) :
    readOperand (.mem m) s = (s.byteAt (effAddr m s).1, s) := by
  simp only [readOperand, he]
  exact memRead_plain s h

@[simp] theorem storeOperand_a (m : MemMode) (v : Byte) : (storeOperand m v s).a = s.a := by simp [storeOperand]
@[simp] theorem storeOperand_x (m : MemMode) (v : Byte) : (storeOperand m v s).x = s.x := by simp [storeOperand]
@[simp] theorem storeOperand_y (m : MemMode) (v : Byte) : (storeOperand m v s).y = s.y := by simp [storeOperand]
@[simp] theorem storeOperand_sp (m : MemMode) (v : Byte) : (storeOperand m v s).sp = s.sp := by simp [storeOperand]
@[simp] theorem storeOperand_pc (m : MemMode) (v : Byte) : (storeOperand m v s).pc = s.pc := by simp [storeOperand]
@[simp] theorem storeOperand_p (m : MemMode) (v : Byte) : (storeOperand m v s).p = s.p := by simp [storeOperand]
@[simp] theorem storeOperand_nmiPending (m : MemMode) (v : Byte) : (storeOperand m v s).nmiPending = s.nmiPending := by simp [storeOperand]
@[simp] theorem storeOperand_iPoll (m : MemMode) (v : Byte) : (storeOperand m v s).iPoll = s.iPoll := by simp [storeOperand]
@[simp] theorem storeOperand_cfg (m : MemMode) (v : Byte) : (storeOperand m v s).cfg = s.cfg := by simp [storeOperand]
@[simp] theorem storeOperand_schedule (m : MemMode) (v : Byte) : (storeOperand m v s).schedule = s.schedule := by simp [storeOperand]
@[simp] theorem storeOperand_nmibLow (m : MemMode) (v : Byte) : (storeOperand m v s).nmibLow = s.nmibLow := by simp [storeOperand]
@[simp] theorem storeOperand_jsrOverlap (m : MemMode) (v : Byte) : (storeOperand m v s).jsrOverlap = s.jsrOverlap := by simp [storeOperand]

@[simp] theorem storeOperand_draws (m : MemMode) (v : Byte) :
    (storeOperand m v s).draws = (effAddr m s).2.draws := by simp [storeOperand]

@[simp] theorem storeOperand_device (m : MemMode) (v : Byte) :
    (storeOperand m v s).device = (effAddr m s).2.deviceAfter (effAddr m s).1 v := by
  simp [storeOperand]

/-- A read leaves memory, the map and the record of writes alone, so what a write after it does is
what it does to the state before. -/
theorem WroteByte.of_read {s s' t : State} {ea : Addr} {v : Byte} (hm : s'.mem = s.mem)
    (he : s'.events = s.events) (hc : s'.cfg = s.cfg) (h : WroteByte s' t ea v) :
    WroteByte s t ea v := by
  simpa [WroteByte, State.byteAt, State.kindAt, hm, he, hc] using h

/-- A store writes one byte at the effective address. -/
theorem storeOperand_wroteByte (m : MemMode) (v : Byte) :
    WroteByte s (storeOperand m v s) (effAddr m s).1 v :=
  WroteByte.of_read (by simp) (by simp) (by simp)
    (memWrite_wroteByte (effAddr m s).2 (effAddr m s).1 v)

theorem modifyOperand_acc (f : Byte → Byte) : modifyOperand .acc f s = (s.a, s.setA (f s.a)) := rfl

/-- The byte a read-modify-write reads is the one an operand read gives. -/
theorem modifyOperand_mem_fst (m : MemMode) (f : Byte → Byte) :
    (modifyOperand (.mem m) f s).1 = (readOperand (.mem m) s).1 := rfl

@[simp] theorem modifyOperand_mem_snd_a (m : MemMode) (f : Byte → Byte) : ((modifyOperand (.mem m) f s).2).a = s.a := by simp [modifyOperand]
@[simp] theorem modifyOperand_mem_snd_x (m : MemMode) (f : Byte → Byte) : ((modifyOperand (.mem m) f s).2).x = s.x := by simp [modifyOperand]
@[simp] theorem modifyOperand_mem_snd_y (m : MemMode) (f : Byte → Byte) : ((modifyOperand (.mem m) f s).2).y = s.y := by simp [modifyOperand]
@[simp] theorem modifyOperand_mem_snd_sp (m : MemMode) (f : Byte → Byte) : ((modifyOperand (.mem m) f s).2).sp = s.sp := by simp [modifyOperand]
@[simp] theorem modifyOperand_mem_snd_pc (m : MemMode) (f : Byte → Byte) : ((modifyOperand (.mem m) f s).2).pc = s.pc := by simp [modifyOperand]
@[simp] theorem modifyOperand_mem_snd_p (m : MemMode) (f : Byte → Byte) : ((modifyOperand (.mem m) f s).2).p = s.p := by simp [modifyOperand]
@[simp] theorem modifyOperand_mem_snd_nmiPending (m : MemMode) (f : Byte → Byte) : ((modifyOperand (.mem m) f s).2).nmiPending = s.nmiPending := by simp [modifyOperand]
@[simp] theorem modifyOperand_mem_snd_iPoll (m : MemMode) (f : Byte → Byte) : ((modifyOperand (.mem m) f s).2).iPoll = s.iPoll := by simp [modifyOperand]
@[simp] theorem modifyOperand_mem_snd_cfg (m : MemMode) (f : Byte → Byte) : ((modifyOperand (.mem m) f s).2).cfg = s.cfg := by simp [modifyOperand]
@[simp] theorem modifyOperand_mem_snd_schedule (m : MemMode) (f : Byte → Byte) : ((modifyOperand (.mem m) f s).2).schedule = s.schedule := by simp [modifyOperand]
@[simp] theorem modifyOperand_mem_snd_nmibLow (m : MemMode) (f : Byte → Byte) : ((modifyOperand (.mem m) f s).2).nmibLow = s.nmibLow := by simp [modifyOperand]
@[simp] theorem modifyOperand_mem_snd_jsrOverlap (m : MemMode) (f : Byte → Byte) : ((modifyOperand (.mem m) f s).2).jsrOverlap = s.jsrOverlap := by simp [modifyOperand]

@[simp] theorem modifyOperand_mem_snd_draws (m : MemMode) (f : Byte → Byte) :
    (modifyOperand (.mem m) f s).2.draws = (readOperand (.mem m) s).2.draws := by
  simp [modifyOperand, readOperand]

@[simp] theorem modifyOperand_mem_snd_device (m : MemMode) (f : Byte → Byte) :
    (modifyOperand (.mem m) f s).2.device =
      (readOperand (.mem m) s).2.deviceAfter (effAddr m s).1 (f (readOperand (.mem m) s).1) := by
  simp [modifyOperand, readOperand]

/-- A read-modify-write writes one byte at the effective address. -/
theorem modifyOperand_mem_wroteByte (m : MemMode) (f : Byte → Byte) :
    WroteByte s (modifyOperand (.mem m) f s).2 (effAddr m s).1
      (f (readOperand (.mem m) s).1) :=
  WroteByte.of_read (by simp) (by simp) (by simp)
    (memWrite_wroteByte (memRead (effAddr m s).1 (effAddr m s).2).2 (effAddr m s).1 _)

/-! ## Exceptions -/

@[simp] theorem pushFrame_a (ret : Addr) (b : Bool) : (pushFrame ret b s).a = s.a := by simp [pushFrame]
@[simp] theorem pushFrame_x (ret : Addr) (b : Bool) : (pushFrame ret b s).x = s.x := by simp [pushFrame]
@[simp] theorem pushFrame_y (ret : Addr) (b : Bool) : (pushFrame ret b s).y = s.y := by simp [pushFrame]
@[simp] theorem pushFrame_pc (ret : Addr) (b : Bool) : (pushFrame ret b s).pc = s.pc := by simp [pushFrame]
@[simp] theorem pushFrame_p (ret : Addr) (b : Bool) : (pushFrame ret b s).p = s.p := by simp [pushFrame]
@[simp] theorem pushFrame_nmiPending (ret : Addr) (b : Bool) : (pushFrame ret b s).nmiPending = s.nmiPending := by simp [pushFrame]
@[simp] theorem pushFrame_iPoll (ret : Addr) (b : Bool) : (pushFrame ret b s).iPoll = s.iPoll := by simp [pushFrame]
@[simp] theorem pushFrame_cfg (ret : Addr) (b : Bool) : (pushFrame ret b s).cfg = s.cfg := by simp [pushFrame]
@[simp] theorem pushFrame_schedule (ret : Addr) (b : Bool) : (pushFrame ret b s).schedule = s.schedule := by simp [pushFrame]
@[simp] theorem pushFrame_nmibLow (ret : Addr) (b : Bool) : (pushFrame ret b s).nmibLow = s.nmibLow := by simp [pushFrame]
@[simp] theorem pushFrame_draws (ret : Addr) (b : Bool) : (pushFrame ret b s).draws = s.draws := by simp [pushFrame]
@[simp] theorem pushFrame_jsrOverlap (ret : Addr) (b : Bool) : (pushFrame ret b s).jsrOverlap = s.jsrOverlap := by simp [pushFrame]

@[simp] theorem pushFrame_sp (ret : Addr) (b : Bool) : (pushFrame ret b s).sp = s.sp - 3#8 := by
  simp only [pushFrame, push8_sp, push16_sp]; bv_omega

@[simp] theorem enterHandler_a (ret : Addr) (b : Bool) (vector : Addr) : (enterHandler ret b vector s).a = s.a := by simp [enterHandler]
@[simp] theorem enterHandler_x (ret : Addr) (b : Bool) (vector : Addr) : (enterHandler ret b vector s).x = s.x := by simp [enterHandler]
@[simp] theorem enterHandler_y (ret : Addr) (b : Bool) (vector : Addr) : (enterHandler ret b vector s).y = s.y := by simp [enterHandler]
@[simp] theorem enterHandler_nmiPending (ret : Addr) (b : Bool) (vector : Addr) : (enterHandler ret b vector s).nmiPending = s.nmiPending := by simp [enterHandler]
@[simp] theorem enterHandler_iPoll (ret : Addr) (b : Bool) (vector : Addr) : (enterHandler ret b vector s).iPoll = s.iPoll := by simp [enterHandler]
@[simp] theorem enterHandler_cfg (ret : Addr) (b : Bool) (vector : Addr) : (enterHandler ret b vector s).cfg = s.cfg := by simp [enterHandler]
@[simp] theorem enterHandler_schedule (ret : Addr) (b : Bool) (vector : Addr) : (enterHandler ret b vector s).schedule = s.schedule := by simp [enterHandler]
@[simp] theorem enterHandler_nmibLow (ret : Addr) (b : Bool) (vector : Addr) : (enterHandler ret b vector s).nmibLow = s.nmibLow := by simp [enterHandler]
@[simp] theorem enterHandler_jsrOverlap (ret : Addr) (b : Bool) (vector : Addr) : (enterHandler ret b vector s).jsrOverlap = s.jsrOverlap := by simp [enterHandler]
@[simp] theorem enterHandler_sp (ret : Addr) (b : Bool) (vector : Addr) : (enterHandler ret b vector s).sp = s.sp - 3#8 := by simp [enterHandler]
@[simp] theorem enterHandler_p (ret : Addr) (b : Bool) (vector : Addr) : (enterHandler ret b vector s).p = { s.p with i := true } := by simp [enterHandler]

/-- The entry writes what its three pushes write: memory and the record of writes are those after
them. -/
theorem enterHandler_mem (ret : Addr) (b : Bool) (vector : Addr) :
    (enterHandler ret b vector s).mem = (pushFrame ret b s).mem := by
  simp [enterHandler]

theorem enterHandler_events (ret : Addr) (b : Bool) (vector : Addr) :
    (enterHandler ret b vector s).events = (pushFrame ret b s).events := by
  simp [enterHandler]

@[simp] theorem returnFromHandler_a : (returnFromHandler s).a = s.a := by simp [returnFromHandler]
@[simp] theorem returnFromHandler_x : (returnFromHandler s).x = s.x := by simp [returnFromHandler]
@[simp] theorem returnFromHandler_y : (returnFromHandler s).y = s.y := by simp [returnFromHandler]
@[simp] theorem returnFromHandler_mem : (returnFromHandler s).mem = s.mem := by simp [returnFromHandler]
@[simp] theorem returnFromHandler_nmiPending : (returnFromHandler s).nmiPending = s.nmiPending := by simp [returnFromHandler]
@[simp] theorem returnFromHandler_iPoll : (returnFromHandler s).iPoll = s.iPoll := by simp [returnFromHandler]
@[simp] theorem returnFromHandler_cfg : (returnFromHandler s).cfg = s.cfg := by simp [returnFromHandler]
@[simp] theorem returnFromHandler_schedule : (returnFromHandler s).schedule = s.schedule := by simp [returnFromHandler]
@[simp] theorem returnFromHandler_nmibLow : (returnFromHandler s).nmibLow = s.nmibLow := by simp [returnFromHandler]
@[simp] theorem returnFromHandler_events : (returnFromHandler s).events = s.events := by simp [returnFromHandler]
@[simp] theorem returnFromHandler_jsrOverlap : (returnFromHandler s).jsrOverlap = s.jsrOverlap := by simp [returnFromHandler]

@[simp] theorem returnFromHandler_sp : (returnFromHandler s).sp = s.sp + 3#8 := by
  simp only [returnFromHandler, State.setPc_sp, pull16_snd_sp, State.setP_sp, pull8_snd_sp]
  bv_omega

@[simp] theorem returnFromHandler_p : (returnFromHandler s).p = unpackP (pull8 s).1 := by
  simp [returnFromHandler]

end Sys2Proof.Machine
end

