-- ==== Sys2Proof/Laws/Boundary.lean ====
section
/-! SUPPORT. What the operations around an instruction do: the lines, the poll, reset, the fetch. -/

namespace Sys2Proof.Machine

variable (s : State)

@[simp] theorem sampleLines_a : (sampleLines s).a = s.a := rfl
@[simp] theorem sampleLines_x : (sampleLines s).x = s.x := rfl
@[simp] theorem sampleLines_y : (sampleLines s).y = s.y := rfl
@[simp] theorem sampleLines_sp : (sampleLines s).sp = s.sp := rfl
@[simp] theorem sampleLines_pc : (sampleLines s).pc = s.pc := rfl
@[simp] theorem sampleLines_p : (sampleLines s).p = s.p := rfl
@[simp] theorem sampleLines_mem : (sampleLines s).mem = s.mem := rfl
@[simp] theorem sampleLines_iPoll : (sampleLines s).iPoll = s.iPoll := rfl
@[simp] theorem sampleLines_cfg : (sampleLines s).cfg = s.cfg := rfl
@[simp] theorem sampleLines_draws : (sampleLines s).draws = s.draws := rfl
@[simp] theorem sampleLines_device : (sampleLines s).device = s.device := rfl
@[simp] theorem sampleLines_events : (sampleLines s).events = s.events := rfl
@[simp] theorem sampleLines_jsrOverlap : (sampleLines s).jsrOverlap = s.jsrOverlap := rfl

/-- With no schedule a boundary changes nothing (R4, the default platform). -/
theorem sampleLines_quiet (h : s.schedule = []) : sampleLines s = s := by
  rw [State.mk.injEq]; simp [sampleLines, State.lines, h, quietLines, fallingEdge, lastLevel]

@[simp] theorem irqUnmasked_snd_a : ((irqUnmasked s).2).a = s.a := by unfold irqUnmasked; split <;> [rfl; rfl; (split <;> rfl)]
@[simp] theorem irqUnmasked_snd_x : ((irqUnmasked s).2).x = s.x := by unfold irqUnmasked; split <;> [rfl; rfl; (split <;> rfl)]
@[simp] theorem irqUnmasked_snd_y : ((irqUnmasked s).2).y = s.y := by unfold irqUnmasked; split <;> [rfl; rfl; (split <;> rfl)]
@[simp] theorem irqUnmasked_snd_sp : ((irqUnmasked s).2).sp = s.sp := by unfold irqUnmasked; split <;> [rfl; rfl; (split <;> rfl)]
@[simp] theorem irqUnmasked_snd_pc : ((irqUnmasked s).2).pc = s.pc := by unfold irqUnmasked; split <;> [rfl; rfl; (split <;> rfl)]
@[simp] theorem irqUnmasked_snd_p : ((irqUnmasked s).2).p = s.p := by unfold irqUnmasked; split <;> [rfl; rfl; (split <;> rfl)]
@[simp] theorem irqUnmasked_snd_mem : ((irqUnmasked s).2).mem = s.mem := by unfold irqUnmasked; split <;> [rfl; rfl; (split <;> rfl)]
@[simp] theorem irqUnmasked_snd_nmiPending : ((irqUnmasked s).2).nmiPending = s.nmiPending := by unfold irqUnmasked; split <;> [rfl; rfl; (split <;> rfl)]
@[simp] theorem irqUnmasked_snd_iPoll : ((irqUnmasked s).2).iPoll = s.iPoll := by unfold irqUnmasked; split <;> [rfl; rfl; (split <;> rfl)]
@[simp] theorem irqUnmasked_snd_cfg : ((irqUnmasked s).2).cfg = s.cfg := by unfold irqUnmasked; split <;> [rfl; rfl; (split <;> rfl)]
@[simp] theorem irqUnmasked_snd_schedule : ((irqUnmasked s).2).schedule = s.schedule := by unfold irqUnmasked; split <;> [rfl; rfl; (split <;> rfl)]
@[simp] theorem irqUnmasked_snd_nmibLow : ((irqUnmasked s).2).nmibLow = s.nmibLow := by unfold irqUnmasked; split <;> [rfl; rfl; (split <;> rfl)]
@[simp] theorem irqUnmasked_snd_device : ((irqUnmasked s).2).device = s.device := by unfold irqUnmasked; split <;> [rfl; rfl; (split <;> rfl)]
@[simp] theorem irqUnmasked_snd_events : ((irqUnmasked s).2).events = s.events := by unfold irqUnmasked; split <;> [rfl; rfl; (split <;> rfl)]
@[simp] theorem irqUnmasked_snd_jsrOverlap : ((irqUnmasked s).2).jsrOverlap = s.jsrOverlap := by unfold irqUnmasked; split <;> [rfl; rfl; (split <;> rfl)]

@[simp] theorem interruptPoll_snd_a (b : Bool) : ((interruptPoll b s).2).a = s.a := by unfold interruptPoll; split <;> [rfl; (split <;> simp)]
@[simp] theorem interruptPoll_snd_x (b : Bool) : ((interruptPoll b s).2).x = s.x := by unfold interruptPoll; split <;> [rfl; (split <;> simp)]
@[simp] theorem interruptPoll_snd_y (b : Bool) : ((interruptPoll b s).2).y = s.y := by unfold interruptPoll; split <;> [rfl; (split <;> simp)]
@[simp] theorem interruptPoll_snd_sp (b : Bool) : ((interruptPoll b s).2).sp = s.sp := by unfold interruptPoll; split <;> [rfl; (split <;> simp)]
@[simp] theorem interruptPoll_snd_pc (b : Bool) : ((interruptPoll b s).2).pc = s.pc := by unfold interruptPoll; split <;> [rfl; (split <;> simp)]
@[simp] theorem interruptPoll_snd_p (b : Bool) : ((interruptPoll b s).2).p = s.p := by unfold interruptPoll; split <;> [rfl; (split <;> simp)]
@[simp] theorem interruptPoll_snd_mem (b : Bool) : ((interruptPoll b s).2).mem = s.mem := by unfold interruptPoll; split <;> [rfl; (split <;> simp)]
@[simp] theorem interruptPoll_snd_nmiPending (b : Bool) : ((interruptPoll b s).2).nmiPending = s.nmiPending := by unfold interruptPoll; split <;> [rfl; (split <;> simp)]
@[simp] theorem interruptPoll_snd_iPoll (b : Bool) : ((interruptPoll b s).2).iPoll = s.iPoll := by unfold interruptPoll; split <;> [rfl; (split <;> simp)]
@[simp] theorem interruptPoll_snd_cfg (b : Bool) : ((interruptPoll b s).2).cfg = s.cfg := by unfold interruptPoll; split <;> [rfl; (split <;> simp)]
@[simp] theorem interruptPoll_snd_schedule (b : Bool) : ((interruptPoll b s).2).schedule = s.schedule := by unfold interruptPoll; split <;> [rfl; (split <;> simp)]
@[simp] theorem interruptPoll_snd_nmibLow (b : Bool) : ((interruptPoll b s).2).nmibLow = s.nmibLow := by unfold interruptPoll; split <;> [rfl; (split <;> simp)]
@[simp] theorem interruptPoll_snd_device (b : Bool) : ((interruptPoll b s).2).device = s.device := by unfold interruptPoll; split <;> [rfl; (split <;> simp)]
@[simp] theorem interruptPoll_snd_events (b : Bool) : ((interruptPoll b s).2).events = s.events := by unfold interruptPoll; split <;> [rfl; (split <;> simp)]
@[simp] theorem interruptPoll_snd_jsrOverlap (b : Bool) : ((interruptPoll b s).2).jsrOverlap = s.jsrOverlap := by unfold interruptPoll; split <;> [rfl; (split <;> simp)]

/-- The poll changes nothing but the number of free values drawn. -/
theorem interruptPoll_snd_eq (b : Bool) :
    (interruptPoll b s).2 = { s with draws := (interruptPoll b s).2.draws } := by
  rw [State.mk.injEq]; simp

/-- No interrupt waits and IRQB is high: the poll accepts nothing. -/
theorem interruptPoll_quiet (hn : s.nmiPending = false) : interruptPoll false s = (none, s) := by
  simp [interruptPoll, hn]

@[simp] theorem readBytes_snd_a (n : Nat) (a : Addr) : ((readBytes n a s).2).a = s.a := by
  induction n generalizing a s with
  | zero => rfl
  | succ n ih => simp [readBytes, ih]
@[simp] theorem readBytes_snd_x (n : Nat) (a : Addr) : ((readBytes n a s).2).x = s.x := by
  induction n generalizing a s with
  | zero => rfl
  | succ n ih => simp [readBytes, ih]
@[simp] theorem readBytes_snd_y (n : Nat) (a : Addr) : ((readBytes n a s).2).y = s.y := by
  induction n generalizing a s with
  | zero => rfl
  | succ n ih => simp [readBytes, ih]
@[simp] theorem readBytes_snd_sp (n : Nat) (a : Addr) : ((readBytes n a s).2).sp = s.sp := by
  induction n generalizing a s with
  | zero => rfl
  | succ n ih => simp [readBytes, ih]
@[simp] theorem readBytes_snd_pc (n : Nat) (a : Addr) : ((readBytes n a s).2).pc = s.pc := by
  induction n generalizing a s with
  | zero => rfl
  | succ n ih => simp [readBytes, ih]
@[simp] theorem readBytes_snd_p (n : Nat) (a : Addr) : ((readBytes n a s).2).p = s.p := by
  induction n generalizing a s with
  | zero => rfl
  | succ n ih => simp [readBytes, ih]
@[simp] theorem readBytes_snd_mem (n : Nat) (a : Addr) : ((readBytes n a s).2).mem = s.mem := by
  induction n generalizing a s with
  | zero => rfl
  | succ n ih => simp [readBytes, ih]
@[simp] theorem readBytes_snd_nmiPending (n : Nat) (a : Addr) : ((readBytes n a s).2).nmiPending = s.nmiPending := by
  induction n generalizing a s with
  | zero => rfl
  | succ n ih => simp [readBytes, ih]
@[simp] theorem readBytes_snd_iPoll (n : Nat) (a : Addr) : ((readBytes n a s).2).iPoll = s.iPoll := by
  induction n generalizing a s with
  | zero => rfl
  | succ n ih => simp [readBytes, ih]
@[simp] theorem readBytes_snd_cfg (n : Nat) (a : Addr) : ((readBytes n a s).2).cfg = s.cfg := by
  induction n generalizing a s with
  | zero => rfl
  | succ n ih => simp [readBytes, ih]
@[simp] theorem readBytes_snd_schedule (n : Nat) (a : Addr) : ((readBytes n a s).2).schedule = s.schedule := by
  induction n generalizing a s with
  | zero => rfl
  | succ n ih => simp [readBytes, ih]
@[simp] theorem readBytes_snd_nmibLow (n : Nat) (a : Addr) : ((readBytes n a s).2).nmibLow = s.nmibLow := by
  induction n generalizing a s with
  | zero => rfl
  | succ n ih => simp [readBytes, ih]
@[simp] theorem readBytes_snd_events (n : Nat) (a : Addr) : ((readBytes n a s).2).events = s.events := by
  induction n generalizing a s with
  | zero => rfl
  | succ n ih => simp [readBytes, ih]
@[simp] theorem readBytes_snd_jsrOverlap (n : Nat) (a : Addr) : ((readBytes n a s).2).jsrOverlap = s.jsrOverlap := by
  induction n generalizing a s with
  | zero => rfl
  | succ n ih => simp [readBytes, ih]

@[simp] theorem resetSequence_mem : (resetSequence s).mem = s.mem := by simp [resetSequence]
@[simp] theorem resetSequence_cfg : (resetSequence s).cfg = s.cfg := by simp [resetSequence]
@[simp] theorem resetSequence_schedule : (resetSequence s).schedule = s.schedule := by simp [resetSequence]
@[simp] theorem resetSequence_nmibLow : (resetSequence s).nmibLow = s.nmibLow := by simp [resetSequence]
@[simp] theorem resetSequence_events : (resetSequence s).events = s.events := by simp [resetSequence]
@[simp] theorem resetSequence_jsrOverlap : (resetSequence s).jsrOverlap = s.jsrOverlap := by simp [resetSequence]

@[simp] theorem resetSequence_p_i : (resetSequence s).p.i = true := by simp [resetSequence]

@[simp] theorem resetSequence_nmiPending : (resetSequence s).nmiPending = false := by
  simp [resetSequence]

@[simp] theorem resetSequence_iPoll : (resetSequence s).iPoll = true := by simp [resetSequence]

/-- Bytes read from plain addresses are the stored ones, and nothing changes. -/
theorem readBytes_plain (n : Nat) (a : Addr) (h : ∀ k < n, s.Plain (a + BitVec.ofNat 16 k)) :
    readBytes n a s = ((List.range n).map (fun k => s.byteAt (a + BitVec.ofNat 16 k)), s) := by
  have shift : ∀ k : Nat, a + 1#16 + BitVec.ofNat 16 k = a + BitVec.ofNat 16 (k + 1) := by
    intro k
    rw [Nat.add_comm k 1, BitVec.ofNat_add, BitVec.add_assoc]
  induction n generalizing a with
  | zero => rfl
  | succ n ih =>
    have h0 : s.Plain a := by simpa using h 0 (Nat.succ_pos n)
    have hr := ih (a + 1#16) (fun k hk => by rw [shift]; exact h (k + 1) (by omega))
      (fun k => by rw [Nat.add_comm k 1, BitVec.ofNat_add, BitVec.add_assoc])
    simp only [readBytes, memRead_plain s h0, hr, List.range_succ_eq_map, List.map_cons,
      List.map_map, shift]
    simp [Function.comp_def]

/-- What a fetch that succeeds gives: an instruction, and the state with pc past it, free values drawn
and devices read. -/
theorem fetch_ok {i : Instr} {t : State} (h : fetch s = .ok (i, t)) :
    t = { s with pc := t.pc, draws := t.draws, device := t.device } := by
  unfold fetch at h
  simp only at h
  split at h
  · cases h
  · split at h
    · cases h; rw [State.mk.injEq]; simp
    · cases h

/-- What a fetch that fails gives: the fault of R66 at pc. -/
theorem fetch_error {f : Fault} (h : fetch s = .error f) :
    f = .illegalOpcode (s.peek s.pc) s.pc := by
  unfold fetch at h
  simp only at h
  split at h
  · cases h; rfl
  · split at h
    · cases h
    · cases h; rfl

end Sys2Proof.Machine
end

