-- ==== Sys2Proof/Laws/PerInstr.lean ====
section
/-! SUPPORT. The laws made per instruction: each constructor is well-formed (R67, R94), its encoding has the length of its mode (R60), and its opcode has that length in the opcode map (R68). -/

namespace Sys2Proof.Laws

/-- The shape of an instruction. -/
def Shape.Statement (i : Instr) : Prop :=
  i.wellFormed = true ∧ (encode i).length = i.length ∧ opcodeLength i.opcode = some i.length

/-- An operand in memory fits the bits of its mode. -/
theorem memMode_value_lt (m : MemMode) : m.value < 2 ^ m.modeId.operandBits := by
  cases m <;> exact BitVec.isLt _

/-- Any operand fits the bits of its mode (R67). -/
theorem operand_value_lt (o : Operand) : o.value < 2 ^ o.modeId.operandBits := by
  cases o
  case implied => decide
  case accumulator => decide
  case memory m => exact memMode_value_lt m
  all_goals exact BitVec.isLt _

/-- The operand bytes of an instruction and its opcode make up its length (R60, R61). -/
theorem encode_length (i : Instr) : (encode i).length = i.length := by
  unfold encode Instr.length
  cases i.operand with
  | memory m => cases m <;> rfl
  | _ => rfl

/-- A well-formedness proof from the pair alone: the operand always fits. -/
theorem shape_of (i : Instr) (hp : i.form.pairAssigned = true)
    (hl : opcodeLength i.opcode = some i.length) : Shape.Statement i :=
  ⟨by simp only [Instr.wellFormed, AsmForm.wellFormed, hp, Bool.true_and, AsmForm.valueFits]
      exact decide_eq_true (operand_value_lt i.operand),
    encode_length i, hl⟩

theorem Shape.ldaImm (v : Byte) : Shape.Statement (.ldaImm v) := shape_of _ rfl rfl
theorem Shape.ldaZp (z : Byte) : Shape.Statement (.ldaZp z) := shape_of _ rfl rfl
theorem Shape.ldaZpX (z : Byte) : Shape.Statement (.ldaZpX z) := shape_of _ rfl rfl
theorem Shape.ldaAbs (w : Addr) : Shape.Statement (.ldaAbs w) := shape_of _ rfl rfl
theorem Shape.ldaAbsX (w : Addr) : Shape.Statement (.ldaAbsX w) := shape_of _ rfl rfl
theorem Shape.ldaAbsY (w : Addr) : Shape.Statement (.ldaAbsY w) := shape_of _ rfl rfl
theorem Shape.ldaIndX (z : Byte) : Shape.Statement (.ldaIndX z) := shape_of _ rfl rfl
theorem Shape.ldaIndY (z : Byte) : Shape.Statement (.ldaIndY z) := shape_of _ rfl rfl
theorem Shape.ldxImm (v : Byte) : Shape.Statement (.ldxImm v) := shape_of _ rfl rfl
theorem Shape.ldxZp (z : Byte) : Shape.Statement (.ldxZp z) := shape_of _ rfl rfl
theorem Shape.ldxZpY (z : Byte) : Shape.Statement (.ldxZpY z) := shape_of _ rfl rfl
theorem Shape.ldxAbs (w : Addr) : Shape.Statement (.ldxAbs w) := shape_of _ rfl rfl
theorem Shape.ldxAbsY (w : Addr) : Shape.Statement (.ldxAbsY w) := shape_of _ rfl rfl
theorem Shape.ldyImm (v : Byte) : Shape.Statement (.ldyImm v) := shape_of _ rfl rfl
theorem Shape.ldyZp (z : Byte) : Shape.Statement (.ldyZp z) := shape_of _ rfl rfl
theorem Shape.ldyZpX (z : Byte) : Shape.Statement (.ldyZpX z) := shape_of _ rfl rfl
theorem Shape.ldyAbs (w : Addr) : Shape.Statement (.ldyAbs w) := shape_of _ rfl rfl
theorem Shape.ldyAbsX (w : Addr) : Shape.Statement (.ldyAbsX w) := shape_of _ rfl rfl
theorem Shape.staZp (z : Byte) : Shape.Statement (.staZp z) := shape_of _ rfl rfl
theorem Shape.staZpX (z : Byte) : Shape.Statement (.staZpX z) := shape_of _ rfl rfl
theorem Shape.staAbs (w : Addr) : Shape.Statement (.staAbs w) := shape_of _ rfl rfl
theorem Shape.staAbsX (w : Addr) : Shape.Statement (.staAbsX w) := shape_of _ rfl rfl
theorem Shape.staAbsY (w : Addr) : Shape.Statement (.staAbsY w) := shape_of _ rfl rfl
theorem Shape.staIndX (z : Byte) : Shape.Statement (.staIndX z) := shape_of _ rfl rfl
theorem Shape.staIndY (z : Byte) : Shape.Statement (.staIndY z) := shape_of _ rfl rfl
theorem Shape.stxZp (z : Byte) : Shape.Statement (.stxZp z) := shape_of _ rfl rfl
theorem Shape.stxZpY (z : Byte) : Shape.Statement (.stxZpY z) := shape_of _ rfl rfl
theorem Shape.stxAbs (w : Addr) : Shape.Statement (.stxAbs w) := shape_of _ rfl rfl
theorem Shape.styZp (z : Byte) : Shape.Statement (.styZp z) := shape_of _ rfl rfl
theorem Shape.styZpX (z : Byte) : Shape.Statement (.styZpX z) := shape_of _ rfl rfl
theorem Shape.styAbs (w : Addr) : Shape.Statement (.styAbs w) := shape_of _ rfl rfl
theorem Shape.tax : Shape.Statement (.tax) := shape_of _ rfl rfl
theorem Shape.tay : Shape.Statement (.tay) := shape_of _ rfl rfl
theorem Shape.tsx : Shape.Statement (.tsx) := shape_of _ rfl rfl
theorem Shape.txa : Shape.Statement (.txa) := shape_of _ rfl rfl
theorem Shape.txs : Shape.Statement (.txs) := shape_of _ rfl rfl
theorem Shape.tya : Shape.Statement (.tya) := shape_of _ rfl rfl
theorem Shape.pha : Shape.Statement (.pha) := shape_of _ rfl rfl
theorem Shape.php : Shape.Statement (.php) := shape_of _ rfl rfl
theorem Shape.pla : Shape.Statement (.pla) := shape_of _ rfl rfl
theorem Shape.plp : Shape.Statement (.plp) := shape_of _ rfl rfl
theorem Shape.andImm (v : Byte) : Shape.Statement (.andImm v) := shape_of _ rfl rfl
theorem Shape.andZp (z : Byte) : Shape.Statement (.andZp z) := shape_of _ rfl rfl
theorem Shape.andZpX (z : Byte) : Shape.Statement (.andZpX z) := shape_of _ rfl rfl
theorem Shape.andAbs (w : Addr) : Shape.Statement (.andAbs w) := shape_of _ rfl rfl
theorem Shape.andAbsX (w : Addr) : Shape.Statement (.andAbsX w) := shape_of _ rfl rfl
theorem Shape.andAbsY (w : Addr) : Shape.Statement (.andAbsY w) := shape_of _ rfl rfl
theorem Shape.andIndX (z : Byte) : Shape.Statement (.andIndX z) := shape_of _ rfl rfl
theorem Shape.andIndY (z : Byte) : Shape.Statement (.andIndY z) := shape_of _ rfl rfl
theorem Shape.eorImm (v : Byte) : Shape.Statement (.eorImm v) := shape_of _ rfl rfl
theorem Shape.eorZp (z : Byte) : Shape.Statement (.eorZp z) := shape_of _ rfl rfl
theorem Shape.eorZpX (z : Byte) : Shape.Statement (.eorZpX z) := shape_of _ rfl rfl
theorem Shape.eorAbs (w : Addr) : Shape.Statement (.eorAbs w) := shape_of _ rfl rfl
theorem Shape.eorAbsX (w : Addr) : Shape.Statement (.eorAbsX w) := shape_of _ rfl rfl
theorem Shape.eorAbsY (w : Addr) : Shape.Statement (.eorAbsY w) := shape_of _ rfl rfl
theorem Shape.eorIndX (z : Byte) : Shape.Statement (.eorIndX z) := shape_of _ rfl rfl
theorem Shape.eorIndY (z : Byte) : Shape.Statement (.eorIndY z) := shape_of _ rfl rfl
theorem Shape.oraImm (v : Byte) : Shape.Statement (.oraImm v) := shape_of _ rfl rfl
theorem Shape.oraZp (z : Byte) : Shape.Statement (.oraZp z) := shape_of _ rfl rfl
theorem Shape.oraZpX (z : Byte) : Shape.Statement (.oraZpX z) := shape_of _ rfl rfl
theorem Shape.oraAbs (w : Addr) : Shape.Statement (.oraAbs w) := shape_of _ rfl rfl
theorem Shape.oraAbsX (w : Addr) : Shape.Statement (.oraAbsX w) := shape_of _ rfl rfl
theorem Shape.oraAbsY (w : Addr) : Shape.Statement (.oraAbsY w) := shape_of _ rfl rfl
theorem Shape.oraIndX (z : Byte) : Shape.Statement (.oraIndX z) := shape_of _ rfl rfl
theorem Shape.oraIndY (z : Byte) : Shape.Statement (.oraIndY z) := shape_of _ rfl rfl
theorem Shape.bitZp (z : Byte) : Shape.Statement (.bitZp z) := shape_of _ rfl rfl
theorem Shape.bitAbs (w : Addr) : Shape.Statement (.bitAbs w) := shape_of _ rfl rfl
theorem Shape.adcImm (v : Byte) : Shape.Statement (.adcImm v) := shape_of _ rfl rfl
theorem Shape.adcZp (z : Byte) : Shape.Statement (.adcZp z) := shape_of _ rfl rfl
theorem Shape.adcZpX (z : Byte) : Shape.Statement (.adcZpX z) := shape_of _ rfl rfl
theorem Shape.adcAbs (w : Addr) : Shape.Statement (.adcAbs w) := shape_of _ rfl rfl
theorem Shape.adcAbsX (w : Addr) : Shape.Statement (.adcAbsX w) := shape_of _ rfl rfl
theorem Shape.adcAbsY (w : Addr) : Shape.Statement (.adcAbsY w) := shape_of _ rfl rfl
theorem Shape.adcIndX (z : Byte) : Shape.Statement (.adcIndX z) := shape_of _ rfl rfl
theorem Shape.adcIndY (z : Byte) : Shape.Statement (.adcIndY z) := shape_of _ rfl rfl
theorem Shape.sbcImm (v : Byte) : Shape.Statement (.sbcImm v) := shape_of _ rfl rfl
theorem Shape.sbcZp (z : Byte) : Shape.Statement (.sbcZp z) := shape_of _ rfl rfl
theorem Shape.sbcZpX (z : Byte) : Shape.Statement (.sbcZpX z) := shape_of _ rfl rfl
theorem Shape.sbcAbs (w : Addr) : Shape.Statement (.sbcAbs w) := shape_of _ rfl rfl
theorem Shape.sbcAbsX (w : Addr) : Shape.Statement (.sbcAbsX w) := shape_of _ rfl rfl
theorem Shape.sbcAbsY (w : Addr) : Shape.Statement (.sbcAbsY w) := shape_of _ rfl rfl
theorem Shape.sbcIndX (z : Byte) : Shape.Statement (.sbcIndX z) := shape_of _ rfl rfl
theorem Shape.sbcIndY (z : Byte) : Shape.Statement (.sbcIndY z) := shape_of _ rfl rfl
theorem Shape.cmpImm (v : Byte) : Shape.Statement (.cmpImm v) := shape_of _ rfl rfl
theorem Shape.cmpZp (z : Byte) : Shape.Statement (.cmpZp z) := shape_of _ rfl rfl
theorem Shape.cmpZpX (z : Byte) : Shape.Statement (.cmpZpX z) := shape_of _ rfl rfl
theorem Shape.cmpAbs (w : Addr) : Shape.Statement (.cmpAbs w) := shape_of _ rfl rfl
theorem Shape.cmpAbsX (w : Addr) : Shape.Statement (.cmpAbsX w) := shape_of _ rfl rfl
theorem Shape.cmpAbsY (w : Addr) : Shape.Statement (.cmpAbsY w) := shape_of _ rfl rfl
theorem Shape.cmpIndX (z : Byte) : Shape.Statement (.cmpIndX z) := shape_of _ rfl rfl
theorem Shape.cmpIndY (z : Byte) : Shape.Statement (.cmpIndY z) := shape_of _ rfl rfl
theorem Shape.cpxImm (v : Byte) : Shape.Statement (.cpxImm v) := shape_of _ rfl rfl
theorem Shape.cpxZp (z : Byte) : Shape.Statement (.cpxZp z) := shape_of _ rfl rfl
theorem Shape.cpxAbs (w : Addr) : Shape.Statement (.cpxAbs w) := shape_of _ rfl rfl
theorem Shape.cpyImm (v : Byte) : Shape.Statement (.cpyImm v) := shape_of _ rfl rfl
theorem Shape.cpyZp (z : Byte) : Shape.Statement (.cpyZp z) := shape_of _ rfl rfl
theorem Shape.cpyAbs (w : Addr) : Shape.Statement (.cpyAbs w) := shape_of _ rfl rfl
theorem Shape.decZp (z : Byte) : Shape.Statement (.decZp z) := shape_of _ rfl rfl
theorem Shape.decZpX (z : Byte) : Shape.Statement (.decZpX z) := shape_of _ rfl rfl
theorem Shape.decAbs (w : Addr) : Shape.Statement (.decAbs w) := shape_of _ rfl rfl
theorem Shape.decAbsX (w : Addr) : Shape.Statement (.decAbsX w) := shape_of _ rfl rfl
theorem Shape.dex : Shape.Statement (.dex) := shape_of _ rfl rfl
theorem Shape.dey : Shape.Statement (.dey) := shape_of _ rfl rfl
theorem Shape.incZp (z : Byte) : Shape.Statement (.incZp z) := shape_of _ rfl rfl
theorem Shape.incZpX (z : Byte) : Shape.Statement (.incZpX z) := shape_of _ rfl rfl
theorem Shape.incAbs (w : Addr) : Shape.Statement (.incAbs w) := shape_of _ rfl rfl
theorem Shape.incAbsX (w : Addr) : Shape.Statement (.incAbsX w) := shape_of _ rfl rfl
theorem Shape.inx : Shape.Statement (.inx) := shape_of _ rfl rfl
theorem Shape.iny : Shape.Statement (.iny) := shape_of _ rfl rfl
theorem Shape.aslAcc : Shape.Statement (.aslAcc) := shape_of _ rfl rfl
theorem Shape.aslZp (z : Byte) : Shape.Statement (.aslZp z) := shape_of _ rfl rfl
theorem Shape.aslZpX (z : Byte) : Shape.Statement (.aslZpX z) := shape_of _ rfl rfl
theorem Shape.aslAbs (w : Addr) : Shape.Statement (.aslAbs w) := shape_of _ rfl rfl
theorem Shape.aslAbsX (w : Addr) : Shape.Statement (.aslAbsX w) := shape_of _ rfl rfl
theorem Shape.lsrAcc : Shape.Statement (.lsrAcc) := shape_of _ rfl rfl
theorem Shape.lsrZp (z : Byte) : Shape.Statement (.lsrZp z) := shape_of _ rfl rfl
theorem Shape.lsrZpX (z : Byte) : Shape.Statement (.lsrZpX z) := shape_of _ rfl rfl
theorem Shape.lsrAbs (w : Addr) : Shape.Statement (.lsrAbs w) := shape_of _ rfl rfl
theorem Shape.lsrAbsX (w : Addr) : Shape.Statement (.lsrAbsX w) := shape_of _ rfl rfl
theorem Shape.rolAcc : Shape.Statement (.rolAcc) := shape_of _ rfl rfl
theorem Shape.rolZp (z : Byte) : Shape.Statement (.rolZp z) := shape_of _ rfl rfl
theorem Shape.rolZpX (z : Byte) : Shape.Statement (.rolZpX z) := shape_of _ rfl rfl
theorem Shape.rolAbs (w : Addr) : Shape.Statement (.rolAbs w) := shape_of _ rfl rfl
theorem Shape.rolAbsX (w : Addr) : Shape.Statement (.rolAbsX w) := shape_of _ rfl rfl
theorem Shape.rorAcc : Shape.Statement (.rorAcc) := shape_of _ rfl rfl
theorem Shape.rorZp (z : Byte) : Shape.Statement (.rorZp z) := shape_of _ rfl rfl
theorem Shape.rorZpX (z : Byte) : Shape.Statement (.rorZpX z) := shape_of _ rfl rfl
theorem Shape.rorAbs (w : Addr) : Shape.Statement (.rorAbs w) := shape_of _ rfl rfl
theorem Shape.rorAbsX (w : Addr) : Shape.Statement (.rorAbsX w) := shape_of _ rfl rfl
theorem Shape.bcc (d : Byte) : Shape.Statement (.bcc d) := shape_of _ rfl rfl
theorem Shape.bcs (d : Byte) : Shape.Statement (.bcs d) := shape_of _ rfl rfl
theorem Shape.beq (d : Byte) : Shape.Statement (.beq d) := shape_of _ rfl rfl
theorem Shape.bmi (d : Byte) : Shape.Statement (.bmi d) := shape_of _ rfl rfl
theorem Shape.bne (d : Byte) : Shape.Statement (.bne d) := shape_of _ rfl rfl
theorem Shape.bpl (d : Byte) : Shape.Statement (.bpl d) := shape_of _ rfl rfl
theorem Shape.bvc (d : Byte) : Shape.Statement (.bvc d) := shape_of _ rfl rfl
theorem Shape.bvs (d : Byte) : Shape.Statement (.bvs d) := shape_of _ rfl rfl
theorem Shape.jmpAbs (w : Addr) : Shape.Statement (.jmpAbs w) := shape_of _ rfl rfl
theorem Shape.jmpInd (w : Addr) : Shape.Statement (.jmpInd w) := shape_of _ rfl rfl
theorem Shape.jsr (w : Addr) : Shape.Statement (.jsr w) := shape_of _ rfl rfl
theorem Shape.rts : Shape.Statement (.rts) := shape_of _ rfl rfl
theorem Shape.clc : Shape.Statement (.clc) := shape_of _ rfl rfl
theorem Shape.cld : Shape.Statement (.cld) := shape_of _ rfl rfl
theorem Shape.cli : Shape.Statement (.cli) := shape_of _ rfl rfl
theorem Shape.clv : Shape.Statement (.clv) := shape_of _ rfl rfl
theorem Shape.sec : Shape.Statement (.sec) := shape_of _ rfl rfl
theorem Shape.sed : Shape.Statement (.sed) := shape_of _ rfl rfl
theorem Shape.sei : Shape.Statement (.sei) := shape_of _ rfl rfl
theorem Shape.brk : Shape.Statement (.brk) := shape_of _ rfl rfl
theorem Shape.nop : Shape.Statement (.nop) := shape_of _ rfl rfl
theorem Shape.rti : Shape.Statement (.rti) := shape_of _ rfl rfl

end Sys2Proof.Laws
end

