-- ==== Sys2Proof/Laws/Codec.lean ====
section
/-! SUPPORT. The words and the opcode map as the decoder and the encoder use them: taking apart undoes putting together, and each row of the map names the instructions whose encoding it is. -/

namespace Sys2Proof

/-- The low byte of a word put together (R5). -/
theorem lowByte_joinBytes (h l : Byte) : lowByte (joinBytes h l) = l := by
  have := h.isLt
  have := l.isLt
  apply BitVec.eq_of_toNat_eq
  simp only [lowByte, joinBytes, BitVec.toNat_ofNat]
  omega

/-- The high byte of a word put together (R5). -/
theorem highByte_joinBytes (h l : Byte) : highByte (joinBytes h l) = h := by
  have := h.isLt
  have := l.isLt
  apply BitVec.eq_of_toNat_eq
  simp only [highByte, joinBytes, BitVec.toNat_ofNat]
  omega

/-- The high and the low byte of a word make it up (R5). -/
theorem joinBytes_highByte_lowByte (w : Addr) : joinBytes (highByte w) (lowByte w) = w := by
  apply BitVec.eq_of_toNat_eq
  have := w.isLt
  simp only [joinBytes, highByte, lowByte, BitVec.toNat_ofNat]
  omega

/-- A row that is found is in the list. -/
theorem mem_of_findRow {op : Nat} {l : List (Nat × RowFormat)} {f : RowFormat}
    (h : findRow op l = some f) : (op, f) ∈ l := by
  induction l with
  | nil => cases h
  | cons r l ih =>
    obtain ⟨k, g⟩ := r
    simp only [findRow] at h
    split at h
    · cases h; subst_vars; simp
    · exact List.mem_cons_of_mem _ (ih h)

/-- A row of the opcode map and the encoder agree: the instructions it makes have its opcode and its
operand bytes. -/
def RowEncodes (r : Nat × RowFormat) : Prop :=
  match r.2 with
  | .none i => i.opcode.toNat = r.1 ∧ i.operand.operandBytes = []
  | .byte f => ∀ b, (f b).opcode.toNat = r.1 ∧ (f b).operand.operandBytes = [b]
  | .word f => ∀ w, (f w).opcode.toNat = r.1 ∧ (f w).operand.operandBytes = [lowByte w, highByte w]

theorem rowEncodes_LoadStore : ∀ r ∈ opcodesLoadStore, RowEncodes r := by
  simp only [opcodesLoadStore, List.forall_mem_cons, List.not_mem_nil, false_implies, implies_true]
  repeat' apply And.intro
  all_goals first | exact ⟨rfl, rfl⟩ | exact fun _ => ⟨rfl, rfl⟩ | trivial

theorem rowEncodes_TransferStack : ∀ r ∈ opcodesTransferStack, RowEncodes r := by
  simp only [opcodesTransferStack, List.forall_mem_cons, List.not_mem_nil, false_implies, implies_true]
  repeat' apply And.intro
  all_goals first | exact ⟨rfl, rfl⟩ | exact fun _ => ⟨rfl, rfl⟩ | trivial

theorem rowEncodes_Logical : ∀ r ∈ opcodesLogical, RowEncodes r := by
  simp only [opcodesLogical, List.forall_mem_cons, List.not_mem_nil, false_implies, implies_true]
  repeat' apply And.intro
  all_goals first | exact ⟨rfl, rfl⟩ | exact fun _ => ⟨rfl, rfl⟩ | trivial

theorem rowEncodes_Arithmetic : ∀ r ∈ opcodesArithmetic, RowEncodes r := by
  simp only [opcodesArithmetic, List.forall_mem_cons, List.not_mem_nil, false_implies, implies_true]
  repeat' apply And.intro
  all_goals first | exact ⟨rfl, rfl⟩ | exact fun _ => ⟨rfl, rfl⟩ | trivial

theorem rowEncodes_IncDec : ∀ r ∈ opcodesIncDec, RowEncodes r := by
  simp only [opcodesIncDec, List.forall_mem_cons, List.not_mem_nil, false_implies, implies_true]
  repeat' apply And.intro
  all_goals first | exact ⟨rfl, rfl⟩ | exact fun _ => ⟨rfl, rfl⟩ | trivial

theorem rowEncodes_ShiftRotate : ∀ r ∈ opcodesShiftRotate, RowEncodes r := by
  simp only [opcodesShiftRotate, List.forall_mem_cons, List.not_mem_nil, false_implies, implies_true]
  repeat' apply And.intro
  all_goals first | exact ⟨rfl, rfl⟩ | exact fun _ => ⟨rfl, rfl⟩ | trivial

theorem rowEncodes_BranchJump : ∀ r ∈ opcodesBranchJump, RowEncodes r := by
  simp only [opcodesBranchJump, List.forall_mem_cons, List.not_mem_nil, false_implies, implies_true]
  repeat' apply And.intro
  all_goals first | exact ⟨rfl, rfl⟩ | exact fun _ => ⟨rfl, rfl⟩ | trivial

theorem rowEncodes_FlagOps : ∀ r ∈ opcodesFlagOps, RowEncodes r := by
  simp only [opcodesFlagOps, List.forall_mem_cons, List.not_mem_nil, false_implies, implies_true]
  repeat' apply And.intro
  all_goals first | exact ⟨rfl, rfl⟩ | exact fun _ => ⟨rfl, rfl⟩ | trivial

theorem rowEncodes_System : ∀ r ∈ opcodesSystem, RowEncodes r := by
  simp only [opcodesSystem, List.forall_mem_cons, List.not_mem_nil, false_implies, implies_true]
  repeat' apply And.intro
  all_goals first | exact ⟨rfl, rfl⟩ | exact fun _ => ⟨rfl, rfl⟩ | trivial

/-- Every row of the opcode map agrees with the encoder. -/
theorem rowEncodes {r : Nat × RowFormat} (h : r ∈ opcodeRows) : RowEncodes r := by
  simp only [opcodeRows, List.mem_append] at h
  rcases h with (((((((h | h) | h) | h) | h) | h) | h) | h) | h
  · exact rowEncodes_LoadStore r h
  · exact rowEncodes_TransferStack r h
  · exact rowEncodes_Logical r h
  · exact rowEncodes_Arithmetic r h
  · exact rowEncodes_IncDec r h
  · exact rowEncodes_ShiftRotate r h
  · exact rowEncodes_BranchJump r h
  · exact rowEncodes_FlagOps r h
  · exact rowEncodes_System r h

/-- A row of two operand bytes decodes the two bytes of a word to the instruction with that word. -/
theorem decode_word {op : Byte} {f : Addr → Instr} (h : findRow op.toNat opcodeRows = some (.word f))
    (w : Addr) (rest : List Byte) :
    decode (op :: lowByte w :: highByte w :: rest) = .ok (f w, rest) := by
  simp only [decode, h, joinBytes_highByte_lowByte]

end Sys2Proof
end

