-- ==== Sys2Proof/Laws/Exceptions.lean ====
section
/-! SUPPORT. What the stack operations on words and taking an exception do to memory, and where the pc goes: one lemma for each. -/

namespace Sys2Proof.Machine

variable (s : State)

/-- What a write does depends on memory, the map, the record and the devices alone. -/
theorem WroteBytes.of_same {s s' t t' : State} {l : List (Addr × Byte)} (hm : s'.mem = s.mem)
    (he : s'.events = s.events) (hc : s'.cfg = s.cfg) (hd : s'.draws = s.draws)
    (hv : s'.device = s.device) (hm' : t'.mem = t.mem) (he' : t'.events = t.events)
    (hv' : t'.device = t.device) (h : WroteBytes s t l) : WroteBytes s' t' l := by
  induction l generalizing s s' with
  | nil => simpa [WroteBytes, State.byteAt, hm, he, hv, hm', he', hv'] using h
  | cons w rest ih =>
    obtain ⟨u, hu, hud, huv, hw, hr⟩ := h
    exact ⟨u, hu.trans hc.symm, hud.trans hd.symm,
      huv.trans (State.deviceAfter_congr hc hd hv _ _).symm,
      WroteByte.of_read hm.symm he.symm hc.symm hw, ih rfl rfl rfl rfl rfl hr⟩

/-- A push is one write of a list of writes. -/
theorem push8_wroteBytes (v : Byte) {t : State} {l : List (Addr × Byte)}
    (h : WroteBytes (push8 v s) t l) : WroteBytes s t ((stackAddr s.sp, v) :: l) :=
  ⟨push8 v s, by simp, by simp, by simp, push8_wroteByte s v, h⟩

/-- A word pushed is two bytes, the high one first (R8). -/
theorem push16_wroteBytes (w : Addr) :
    WroteBytes s (push16 w s)
      [(stackAddr s.sp, highByte w), (stackAddr (s.sp - 1#8), lowByte w)] := by
  have h := push8_wroteBytes (push8 (highByte w) s) (lowByte w) (l := [])
    ⟨fun _ => rfl, rfl, rfl⟩
  rw [push8_sp] at h
  exact push8_wroteBytes s _ h

/-- The three bytes an exception pushes (R185, R207). -/
theorem pushFrame_wroteBytes (ret : Addr) (b : Bool) :
    WroteBytes s (pushFrame ret b s)
      [(stackAddr s.sp, highByte ret), (stackAddr (s.sp - 1#8), lowByte ret),
       (stackAddr (s.sp - 2#8), packP b s.p)] := by
  have h := push8_wroteBytes (push16 ret s) (packP b s.p) (l := []) ⟨fun _ => rfl, rfl, rfl⟩
  rw [push16_sp] at h
  have h := push8_wroteBytes (push8 (highByte ret) s) (lowByte ret) h
  rw [push8_sp] at h
  exact push8_wroteBytes s _ h

/-- The pushes of an exception change only S, memory, the record and the devices' state. -/
theorem pushFrame_eq (ret : Addr) (b : Bool) :
    pushFrame ret b s =
      { s with
        mem := (pushFrame ret b s).mem, events := (pushFrame ret b s).events
        device := (pushFrame ret b s).device, sp := s.sp - 3#8 } := by
  rw [State.mk.injEq]; simp

/-- Taking an exception: its pushes, I set, and pc from the vector as it reads after the pushes. -/
theorem enterHandler_eq (ret : Addr) (b : Bool) (vector : Addr) :
    enterHandler ret b vector s =
      { pushFrame ret b s with
        p := { s.p with i := true }, pc := (read16 vector (pushFrame ret b s)).1
        draws := (read16 vector (pushFrame ret b s)).2.draws
        device := (read16 vector (pushFrame ret b s)).2.device } := by
  rw [State.mk.injEq]; simp [enterHandler, read16, readPair]

/-- A list of writes leaves every address it does not name alone. -/
theorem WroteBytes.other {s t : State} {l : List (Addr × Byte)} (h : WroteBytes s t l) {b : Addr}
    (hb : ∀ w ∈ l, b ≠ w.1) : t.byteAt b = s.byteAt b := by
  induction l generalizing s with
  | nil => exact h.1 b
  | cons w rest ih =>
    obtain ⟨u, _, _, _, hw, hr⟩ := h
    rw [ih hr (fun v hv => hb v (List.mem_cons_of_mem _ hv)), hw.1 b (hb w List.mem_cons_self)]

/-- Where an exception goes: the word at its vector before it, since the stack is in page one and the
vectors are not (R42, R43). -/
theorem enterHandler_pc_plain (ret : Addr) (b : Bool) (vector : Addr) (hv : 512 ≤ vector.toNat)
    (hv' : 512 ≤ (vector + 1#16).toNat) (hl : s.Plain vector) (hh : s.Plain (vector + 1#16)) :
    (enterHandler ret b vector s).pc = joinBytes (s.byteAt (vector + 1#16)) (s.byteAt vector) ∧
      (enterHandler ret b vector s).draws = s.draws ∧
      (enterHandler ret b vector s).device = (pushFrame ret b s).device := by
  have hw := pushFrame_wroteBytes s ret b
  have hout : ∀ a : Addr, 512 ≤ a.toNat → (pushFrame ret b s).byteAt a = s.byteAt a := by
    intro a ha
    refine hw.other fun w hw' he => ?_
    have hsp : ∀ sp : Byte, a ≠ stackAddr sp := by
      intro sp h
      have := stackAddr_toNat sp
      have := sp.isLt
      rw [← h] at *
      omega
    simp only [List.mem_cons, List.not_mem_nil, or_false] at hw'
    rcases hw' with rfl | rfl | rfl <;> exact hsp _ he
  have plain : ∀ a, s.Plain a → (pushFrame ret b s).Plain a := by
    intro a ha
    have hk : (pushFrame ret b s).kindAt a = s.kindAt a := State.kindAt_congr (by simp) a
    simpa [State.Plain, hk] using ha
  have hr : read16 vector (pushFrame ret b s) = _ := readPair_plain _ (plain _ hl) (plain _ hh)
  rw [enterHandler_eq, hr, hout _ hv, hout _ hv']
  simp

/-- An interrupt entry sets I and leaves the other flags (R207). -/
theorem interruptEntry_p (e : Event) : (interruptEntry e s).p = { s.p with i := true } := by
  cases e
  · exact enterHandler_p { s with nmiPending := false } s.pc false Config.nmiVector
  · exact enterHandler_p s s.pc false Config.irqVector

/-- After an interrupt entry `i_poll` is the I it has set (R211). -/
theorem interruptEntry_iPoll (e : Event) : (interruptEntry e s).iPoll = true := by
  cases e
  · exact congrArg Flags.i (enterHandler_p { s with nmiPending := false } s.pc false Config.nmiVector)
  · exact congrArg Flags.i (enterHandler_p s s.pc false Config.irqVector)

/-- A word pulled is the word pushed, on a stack in ram (R8). -/
theorem pull16_push16 (w : Addr) (h : s.PageOneRam) :
    pull16 (push16 w s) = (w, (push16 w s).setSp s.sp) := by
  have h1 := pull8_push8 (push8 (highByte w) s) (lowByte w) (push8_pageOneRam s _ h)
  have h1' : pull8 (push16 w s) = (lowByte w, (push16 w s).setSp (s.sp - 1#8)) := by
    rw [push8_sp] at h1; exact h1
  have hk : ((push16 w s).setSp (s.sp - 1#8)).kindAt (stackAddr s.sp) = .ram :=
    (State.kindAt_congr (by simp) _).trans (h s.sp)
  have hs : s.sp - 1#8 + 1#8 = s.sp := by bv_omega
  have hp := pull8_plain ((push16 w s).setSp (s.sp - 1#8))
    (by rw [State.setSp_sp, hs]; exact Or.inl hk)
  have hb : (push16 w s).byteAt (stackAddr s.sp) = highByte w := by
    have hne : stackAddr s.sp ≠ stackAddr (push8 (highByte w) s).sp := by
      intro he
      have := stackAddr_inj he
      rw [push8_sp] at this
      bv_omega
    exact (push8_byteAt_other (push8 (highByte w) s) (lowByte w) hne).trans
      (push8_byteAt_same s _ (h s.sp))
  simp only [State.setSp_sp, hs] at hp
  have hb' : ((push16 w s).setSp (s.sp - 1#8)).byteAt (stackAddr s.sp) = highByte w := hb
  rw [hb'] at hp
  simp only [pull16, h1', hp, joinBytes_highByte_lowByte]
  rfl

end Sys2Proof.Machine
end

