-- ==== Sys2Proof/Laws/Exec.lean ====
section
/-! SUPPORT. What `exec` does by mnemonic: for each mnemonic the shared meaning it runs, with the operand of the instruction. -/

namespace Sys2Proof.Machine

/-- The meaning an instruction runs, by its mnemonic. -/
def ExecForm (i : Instr) (s : State) : Prop :=
  match i.mnemonic with
  | .LDA => ∃ o : Src, i.operand.src? = some o ∧ exec i s = lda o s
  | .LDX => ∃ o : Src, i.operand.src? = some o ∧ exec i s = ldx o s
  | .LDY => ∃ o : Src, i.operand.src? = some o ∧ exec i s = ldy o s
  | .STA => ∃ m : MemMode, i.operand = .memory m ∧ exec i s = sta m s
  | .STX => ∃ m : MemMode, i.operand = .memory m ∧ exec i s = stx m s
  | .STY => ∃ m : MemMode, i.operand = .memory m ∧ exec i s = sty m s
  | .TAX => exec i s = execTax s
  | .TAY => exec i s = execTay s
  | .TSX => exec i s = execTsx s
  | .TXA => exec i s = execTxa s
  | .TXS => exec i s = execTxs s
  | .TYA => exec i s = execTya s
  | .PHA => exec i s = execPha s
  | .PHP => exec i s = execPhp s
  | .PLA => exec i s = execPla s
  | .PLP => exec i s = execPlp s
  | .AND => ∃ o : Src, i.operand.src? = some o ∧ exec i s = logical (fun a m => a &&& m) o s
  | .EOR => ∃ o : Src, i.operand.src? = some o ∧ exec i s = logical (fun a m => a ^^^ m) o s
  | .ORA => ∃ o : Src, i.operand.src? = some o ∧ exec i s = logical (fun a m => a ||| m) o s
  | .BIT => ∃ m : MemMode, i.operand = .memory m ∧ exec i s = bitTest (.mem m) s
  | .ADC => ∃ o : Src, i.operand.src? = some o ∧ exec i s = adc o s
  | .SBC => ∃ o : Src, i.operand.src? = some o ∧ exec i s = sbc o s
  | .CMP => ∃ o : Src, i.operand.src? = some o ∧ exec i s = compareReg s.a o s
  | .CPX => ∃ o : Src, i.operand.src? = some o ∧ exec i s = compareReg s.x o s
  | .CPY => ∃ o : Src, i.operand.src? = some o ∧ exec i s = compareReg s.y o s
  | .DEC => ∃ m : MemMode, i.operand = .memory m ∧ exec i s = incDec (fun v => v - 1#8) m s
  | .DEX => exec i s = execDex s
  | .DEY => exec i s = execDey s
  | .INC => ∃ m : MemMode, i.operand = .memory m ∧ exec i s = incDec (fun v => v + 1#8) m s
  | .INX => exec i s = execInx s
  | .INY => exec i s = execIny s
  | .ASL => ∃ o : Rmw, i.operand.rmw? = some o ∧ exec i s = shift shiftAsl o s
  | .LSR => ∃ o : Rmw, i.operand.rmw? = some o ∧ exec i s = shift shiftLsr o s
  | .ROL => ∃ o : Rmw, i.operand.rmw? = some o ∧ exec i s = shift shiftRol o s
  | .ROR => ∃ o : Rmw, i.operand.rmw? = some o ∧ exec i s = shift shiftRor o s
  | .BCC => ∃ d : Byte, i.operand = .relative d ∧ exec i s = branch (!s.p.c) d s
  | .BCS => ∃ d : Byte, i.operand = .relative d ∧ exec i s = branch s.p.c d s
  | .BEQ => ∃ d : Byte, i.operand = .relative d ∧ exec i s = branch s.p.z d s
  | .BMI => ∃ d : Byte, i.operand = .relative d ∧ exec i s = branch s.p.n d s
  | .BNE => ∃ d : Byte, i.operand = .relative d ∧ exec i s = branch (!s.p.z) d s
  | .BPL => ∃ d : Byte, i.operand = .relative d ∧ exec i s = branch (!s.p.n) d s
  | .BVC => ∃ d : Byte, i.operand = .relative d ∧ exec i s = branch (!s.p.v) d s
  | .BVS => ∃ d : Byte, i.operand = .relative d ∧ exec i s = branch s.p.v d s
  | .JMP => (∃ w : Addr, i = .jmpAbs w ∧ exec i s = execJmpAbs w s) ∨
    ∃ w : Addr, i = .jmpInd w ∧ exec i s = execJmpInd w s
  | .JSR => ∃ w : Addr, i = .jsr w ∧ exec i s = execJsr w s
  | .RTS => exec i s = execRts s
  | .CLC => exec i s = execClc s
  | .CLD => exec i s = execCld s
  | .CLI => exec i s = execCli s
  | .CLV => exec i s = execClv s
  | .SEC => exec i s = execSec s
  | .SED => exec i s = execSed s
  | .SEI => exec i s = execSei s
  | .BRK => exec i s = execBrk s
  | .NOP => exec i s = execNop s
  | .RTI => exec i s = execRti s

/-- Every arm of `exec` runs the meaning of its mnemonic on its operand. -/
theorem execForm (i : Instr) (s : State) : ExecForm i s := by
  cases i
  case tax => exact rfl
  case tay => exact rfl
  case tsx => exact rfl
  case txa => exact rfl
  case txs => exact rfl
  case tya => exact rfl
  case pha => exact rfl
  case php => exact rfl
  case pla => exact rfl
  case plp => exact rfl
  case dex => exact rfl
  case dey => exact rfl
  case inx => exact rfl
  case iny => exact rfl
  case rts => exact rfl
  case clc => exact rfl
  case cld => exact rfl
  case cli => exact rfl
  case clv => exact rfl
  case sec => exact rfl
  case sed => exact rfl
  case sei => exact rfl
  case brk => exact rfl
  case nop => exact rfl
  case rti => exact rfl
  case jmpAbs w => exact .inl ⟨w, rfl, rfl⟩
  case jmpInd w => exact .inr ⟨w, rfl, rfl⟩
  all_goals exact ⟨_, rfl, rfl⟩

variable {i : Instr}

theorem exec_lda (h : i.mnemonic = .LDA) (s : State) :
    ∃ o : Src, i.operand.src? = some o ∧ exec i s = lda o s := by
  have e := execForm i s
  rw [ExecForm, h] at e
  exact e

theorem exec_ldx (h : i.mnemonic = .LDX) (s : State) :
    ∃ o : Src, i.operand.src? = some o ∧ exec i s = ldx o s := by
  have e := execForm i s
  rw [ExecForm, h] at e
  exact e

theorem exec_ldy (h : i.mnemonic = .LDY) (s : State) :
    ∃ o : Src, i.operand.src? = some o ∧ exec i s = ldy o s := by
  have e := execForm i s
  rw [ExecForm, h] at e
  exact e

theorem exec_sta (h : i.mnemonic = .STA) (s : State) :
    ∃ m : MemMode, i.operand = .memory m ∧ exec i s = sta m s := by
  have e := execForm i s
  rw [ExecForm, h] at e
  exact e

theorem exec_stx (h : i.mnemonic = .STX) (s : State) :
    ∃ m : MemMode, i.operand = .memory m ∧ exec i s = stx m s := by
  have e := execForm i s
  rw [ExecForm, h] at e
  exact e

theorem exec_sty (h : i.mnemonic = .STY) (s : State) :
    ∃ m : MemMode, i.operand = .memory m ∧ exec i s = sty m s := by
  have e := execForm i s
  rw [ExecForm, h] at e
  exact e

theorem exec_tax (h : i.mnemonic = .TAX) (s : State) :
    exec i s = execTax s := by
  have e := execForm i s
  rw [ExecForm, h] at e
  exact e

theorem exec_tay (h : i.mnemonic = .TAY) (s : State) :
    exec i s = execTay s := by
  have e := execForm i s
  rw [ExecForm, h] at e
  exact e

theorem exec_tsx (h : i.mnemonic = .TSX) (s : State) :
    exec i s = execTsx s := by
  have e := execForm i s
  rw [ExecForm, h] at e
  exact e

theorem exec_txa (h : i.mnemonic = .TXA) (s : State) :
    exec i s = execTxa s := by
  have e := execForm i s
  rw [ExecForm, h] at e
  exact e

theorem exec_txs (h : i.mnemonic = .TXS) (s : State) :
    exec i s = execTxs s := by
  have e := execForm i s
  rw [ExecForm, h] at e
  exact e

theorem exec_tya (h : i.mnemonic = .TYA) (s : State) :
    exec i s = execTya s := by
  have e := execForm i s
  rw [ExecForm, h] at e
  exact e

theorem exec_pha (h : i.mnemonic = .PHA) (s : State) :
    exec i s = execPha s := by
  have e := execForm i s
  rw [ExecForm, h] at e
  exact e

theorem exec_php (h : i.mnemonic = .PHP) (s : State) :
    exec i s = execPhp s := by
  have e := execForm i s
  rw [ExecForm, h] at e
  exact e

theorem exec_pla (h : i.mnemonic = .PLA) (s : State) :
    exec i s = execPla s := by
  have e := execForm i s
  rw [ExecForm, h] at e
  exact e

theorem exec_plp (h : i.mnemonic = .PLP) (s : State) :
    exec i s = execPlp s := by
  have e := execForm i s
  rw [ExecForm, h] at e
  exact e

theorem exec_and (h : i.mnemonic = .AND) (s : State) :
    ∃ o : Src, i.operand.src? = some o ∧ exec i s = logical (fun a m => a &&& m) o s := by
  have e := execForm i s
  rw [ExecForm, h] at e
  exact e

theorem exec_eor (h : i.mnemonic = .EOR) (s : State) :
    ∃ o : Src, i.operand.src? = some o ∧ exec i s = logical (fun a m => a ^^^ m) o s := by
  have e := execForm i s
  rw [ExecForm, h] at e
  exact e

theorem exec_ora (h : i.mnemonic = .ORA) (s : State) :
    ∃ o : Src, i.operand.src? = some o ∧ exec i s = logical (fun a m => a ||| m) o s := by
  have e := execForm i s
  rw [ExecForm, h] at e
  exact e

theorem exec_bit (h : i.mnemonic = .BIT) (s : State) :
    ∃ m : MemMode, i.operand = .memory m ∧ exec i s = bitTest (.mem m) s := by
  have e := execForm i s
  rw [ExecForm, h] at e
  exact e

theorem exec_adc (h : i.mnemonic = .ADC) (s : State) :
    ∃ o : Src, i.operand.src? = some o ∧ exec i s = adc o s := by
  have e := execForm i s
  rw [ExecForm, h] at e
  exact e

theorem exec_sbc (h : i.mnemonic = .SBC) (s : State) :
    ∃ o : Src, i.operand.src? = some o ∧ exec i s = sbc o s := by
  have e := execForm i s
  rw [ExecForm, h] at e
  exact e

theorem exec_cmp (h : i.mnemonic = .CMP) (s : State) :
    ∃ o : Src, i.operand.src? = some o ∧ exec i s = compareReg s.a o s := by
  have e := execForm i s
  rw [ExecForm, h] at e
  exact e

theorem exec_cpx (h : i.mnemonic = .CPX) (s : State) :
    ∃ o : Src, i.operand.src? = some o ∧ exec i s = compareReg s.x o s := by
  have e := execForm i s
  rw [ExecForm, h] at e
  exact e

theorem exec_cpy (h : i.mnemonic = .CPY) (s : State) :
    ∃ o : Src, i.operand.src? = some o ∧ exec i s = compareReg s.y o s := by
  have e := execForm i s
  rw [ExecForm, h] at e
  exact e

theorem exec_dec (h : i.mnemonic = .DEC) (s : State) :
    ∃ m : MemMode, i.operand = .memory m ∧ exec i s = incDec (fun v => v - 1#8) m s := by
  have e := execForm i s
  rw [ExecForm, h] at e
  exact e

theorem exec_dex (h : i.mnemonic = .DEX) (s : State) :
    exec i s = execDex s := by
  have e := execForm i s
  rw [ExecForm, h] at e
  exact e

theorem exec_dey (h : i.mnemonic = .DEY) (s : State) :
    exec i s = execDey s := by
  have e := execForm i s
  rw [ExecForm, h] at e
  exact e

theorem exec_inc (h : i.mnemonic = .INC) (s : State) :
    ∃ m : MemMode, i.operand = .memory m ∧ exec i s = incDec (fun v => v + 1#8) m s := by
  have e := execForm i s
  rw [ExecForm, h] at e
  exact e

theorem exec_inx (h : i.mnemonic = .INX) (s : State) :
    exec i s = execInx s := by
  have e := execForm i s
  rw [ExecForm, h] at e
  exact e

theorem exec_iny (h : i.mnemonic = .INY) (s : State) :
    exec i s = execIny s := by
  have e := execForm i s
  rw [ExecForm, h] at e
  exact e

theorem exec_asl (h : i.mnemonic = .ASL) (s : State) :
    ∃ o : Rmw, i.operand.rmw? = some o ∧ exec i s = shift shiftAsl o s := by
  have e := execForm i s
  rw [ExecForm, h] at e
  exact e

theorem exec_lsr (h : i.mnemonic = .LSR) (s : State) :
    ∃ o : Rmw, i.operand.rmw? = some o ∧ exec i s = shift shiftLsr o s := by
  have e := execForm i s
  rw [ExecForm, h] at e
  exact e

theorem exec_rol (h : i.mnemonic = .ROL) (s : State) :
    ∃ o : Rmw, i.operand.rmw? = some o ∧ exec i s = shift shiftRol o s := by
  have e := execForm i s
  rw [ExecForm, h] at e
  exact e

theorem exec_ror (h : i.mnemonic = .ROR) (s : State) :
    ∃ o : Rmw, i.operand.rmw? = some o ∧ exec i s = shift shiftRor o s := by
  have e := execForm i s
  rw [ExecForm, h] at e
  exact e

theorem exec_bcc (h : i.mnemonic = .BCC) (s : State) :
    ∃ d : Byte, i.operand = .relative d ∧ exec i s = branch (!s.p.c) d s := by
  have e := execForm i s
  rw [ExecForm, h] at e
  exact e

theorem exec_bcs (h : i.mnemonic = .BCS) (s : State) :
    ∃ d : Byte, i.operand = .relative d ∧ exec i s = branch s.p.c d s := by
  have e := execForm i s
  rw [ExecForm, h] at e
  exact e

theorem exec_beq (h : i.mnemonic = .BEQ) (s : State) :
    ∃ d : Byte, i.operand = .relative d ∧ exec i s = branch s.p.z d s := by
  have e := execForm i s
  rw [ExecForm, h] at e
  exact e

theorem exec_bmi (h : i.mnemonic = .BMI) (s : State) :
    ∃ d : Byte, i.operand = .relative d ∧ exec i s = branch s.p.n d s := by
  have e := execForm i s
  rw [ExecForm, h] at e
  exact e

theorem exec_bne (h : i.mnemonic = .BNE) (s : State) :
    ∃ d : Byte, i.operand = .relative d ∧ exec i s = branch (!s.p.z) d s := by
  have e := execForm i s
  rw [ExecForm, h] at e
  exact e

theorem exec_bpl (h : i.mnemonic = .BPL) (s : State) :
    ∃ d : Byte, i.operand = .relative d ∧ exec i s = branch (!s.p.n) d s := by
  have e := execForm i s
  rw [ExecForm, h] at e
  exact e

theorem exec_bvc (h : i.mnemonic = .BVC) (s : State) :
    ∃ d : Byte, i.operand = .relative d ∧ exec i s = branch (!s.p.v) d s := by
  have e := execForm i s
  rw [ExecForm, h] at e
  exact e

theorem exec_bvs (h : i.mnemonic = .BVS) (s : State) :
    ∃ d : Byte, i.operand = .relative d ∧ exec i s = branch s.p.v d s := by
  have e := execForm i s
  rw [ExecForm, h] at e
  exact e

theorem exec_jmp (h : i.mnemonic = .JMP) (s : State) :
    (∃ w : Addr, i = .jmpAbs w ∧ exec i s = execJmpAbs w s) ∨
    ∃ w : Addr, i = .jmpInd w ∧ exec i s = execJmpInd w s := by
  have e := execForm i s
  rw [ExecForm, h] at e
  exact e

theorem exec_jsr (h : i.mnemonic = .JSR) (s : State) :
    ∃ w : Addr, i = .jsr w ∧ exec i s = execJsr w s := by
  have e := execForm i s
  rw [ExecForm, h] at e
  exact e

theorem exec_rts (h : i.mnemonic = .RTS) (s : State) :
    exec i s = execRts s := by
  have e := execForm i s
  rw [ExecForm, h] at e
  exact e

theorem exec_clc (h : i.mnemonic = .CLC) (s : State) :
    exec i s = execClc s := by
  have e := execForm i s
  rw [ExecForm, h] at e
  exact e

theorem exec_cld (h : i.mnemonic = .CLD) (s : State) :
    exec i s = execCld s := by
  have e := execForm i s
  rw [ExecForm, h] at e
  exact e

theorem exec_cli (h : i.mnemonic = .CLI) (s : State) :
    exec i s = execCli s := by
  have e := execForm i s
  rw [ExecForm, h] at e
  exact e

theorem exec_clv (h : i.mnemonic = .CLV) (s : State) :
    exec i s = execClv s := by
  have e := execForm i s
  rw [ExecForm, h] at e
  exact e

theorem exec_sec (h : i.mnemonic = .SEC) (s : State) :
    exec i s = execSec s := by
  have e := execForm i s
  rw [ExecForm, h] at e
  exact e

theorem exec_sed (h : i.mnemonic = .SED) (s : State) :
    exec i s = execSed s := by
  have e := execForm i s
  rw [ExecForm, h] at e
  exact e

theorem exec_sei (h : i.mnemonic = .SEI) (s : State) :
    exec i s = execSei s := by
  have e := execForm i s
  rw [ExecForm, h] at e
  exact e

theorem exec_brk (h : i.mnemonic = .BRK) (s : State) :
    exec i s = execBrk s := by
  have e := execForm i s
  rw [ExecForm, h] at e
  exact e

theorem exec_nop (h : i.mnemonic = .NOP) (s : State) :
    exec i s = execNop s := by
  have e := execForm i s
  rw [ExecForm, h] at e
  exact e

theorem exec_rti (h : i.mnemonic = .RTI) (s : State) :
    exec i s = execRti s := by
  have e := execForm i s
  rw [ExecForm, h] at e
  exact e

end Sys2Proof.Machine
end

