-- ==== Sys2Proof/Laws/Reset.lean ====
section
/-! SUPPORT. What a reset inside an instruction does (R205, U8): for the open writes and for the step that cuts an instruction short, the fields each keeps (simp), and one lemma for the rest. -/

namespace Sys2Proof.Machine

variable (s : State)

/-- What an open write keeps is what drawing a free value and a write keep. -/
theorem cutWrites_cons (a : Addr) (rest : List Addr) :
    cutWrites (a :: rest) s = cutWrites rest s.drawn ∨
      ∃ v : Byte, cutWrites (a :: rest) s = cutWrites rest (memWrite a v s.drawn) := by
  rw [cutWrites]
  split
  · exact .inr ⟨_, rfl⟩
  · exact .inl rfl

@[simp] theorem cutWrites_a (l : List Addr) : (cutWrites l s).a = s.a := by
  induction l generalizing s with
  | nil => rfl
  | cons a rest ih => obtain h | ⟨v, h⟩ := cutWrites_cons s a rest <;> rw [h, ih] <;> simp
@[simp] theorem cutWrites_x (l : List Addr) : (cutWrites l s).x = s.x := by
  induction l generalizing s with
  | nil => rfl
  | cons a rest ih => obtain h | ⟨v, h⟩ := cutWrites_cons s a rest <;> rw [h, ih] <;> simp
@[simp] theorem cutWrites_y (l : List Addr) : (cutWrites l s).y = s.y := by
  induction l generalizing s with
  | nil => rfl
  | cons a rest ih => obtain h | ⟨v, h⟩ := cutWrites_cons s a rest <;> rw [h, ih] <;> simp
@[simp] theorem cutWrites_sp (l : List Addr) : (cutWrites l s).sp = s.sp := by
  induction l generalizing s with
  | nil => rfl
  | cons a rest ih => obtain h | ⟨v, h⟩ := cutWrites_cons s a rest <;> rw [h, ih] <;> simp
@[simp] theorem cutWrites_pc (l : List Addr) : (cutWrites l s).pc = s.pc := by
  induction l generalizing s with
  | nil => rfl
  | cons a rest ih => obtain h | ⟨v, h⟩ := cutWrites_cons s a rest <;> rw [h, ih] <;> simp
@[simp] theorem cutWrites_p (l : List Addr) : (cutWrites l s).p = s.p := by
  induction l generalizing s with
  | nil => rfl
  | cons a rest ih => obtain h | ⟨v, h⟩ := cutWrites_cons s a rest <;> rw [h, ih] <;> simp
@[simp] theorem cutWrites_nmiPending (l : List Addr) : (cutWrites l s).nmiPending = s.nmiPending := by
  induction l generalizing s with
  | nil => rfl
  | cons a rest ih => obtain h | ⟨v, h⟩ := cutWrites_cons s a rest <;> rw [h, ih] <;> simp
@[simp] theorem cutWrites_iPoll (l : List Addr) : (cutWrites l s).iPoll = s.iPoll := by
  induction l generalizing s with
  | nil => rfl
  | cons a rest ih => obtain h | ⟨v, h⟩ := cutWrites_cons s a rest <;> rw [h, ih] <;> simp
@[simp] theorem cutWrites_cfg (l : List Addr) : (cutWrites l s).cfg = s.cfg := by
  induction l generalizing s with
  | nil => rfl
  | cons a rest ih => obtain h | ⟨v, h⟩ := cutWrites_cons s a rest <;> rw [h, ih] <;> simp
@[simp] theorem cutWrites_schedule (l : List Addr) : (cutWrites l s).schedule = s.schedule := by
  induction l generalizing s with
  | nil => rfl
  | cons a rest ih => obtain h | ⟨v, h⟩ := cutWrites_cons s a rest <;> rw [h, ih] <;> simp
@[simp] theorem cutWrites_nmibLow (l : List Addr) : (cutWrites l s).nmibLow = s.nmibLow := by
  induction l generalizing s with
  | nil => rfl
  | cons a rest ih => obtain h | ⟨v, h⟩ := cutWrites_cons s a rest <;> rw [h, ih] <;> simp
@[simp] theorem cutWrites_jsrOverlap (l : List Addr) : (cutWrites l s).jsrOverlap = s.jsrOverlap := by
  induction l generalizing s with
  | nil => rfl
  | cons a rest ih => obtain h | ⟨v, h⟩ := cutWrites_cons s a rest <;> rw [h, ih] <;> simp

/-- Open writes leave every other address alone. -/
theorem cutWrites_other {l : List Addr} {b : Addr} (hb : b ∉ l) :
    (cutWrites l s).byteAt b = s.byteAt b := by
  induction l generalizing s with
  | nil => rfl
  | cons a rest ih =>
    have hba : b ≠ a := fun h => hb (h ▸ List.mem_cons_self)
    have hbr : b ∉ rest := fun h => hb (List.mem_cons_of_mem _ h)
    obtain h | ⟨v, h⟩ := cutWrites_cons s a rest
    · rw [h, ih _ hbr]; rfl
    · rw [h, ih _ hbr, (memWrite_wroteByte s.drawn a v).1 b hba]; rfl

/-- Open writes change no byte outside ram. -/
theorem cutWrites_not_ram (l : List Addr) {b : Addr} (hb : s.kindAt b ≠ .ram) :
    (cutWrites l s).byteAt b = s.byteAt b := by
  induction l generalizing s with
  | nil => rfl
  | cons a rest ih =>
    obtain h | ⟨v, h⟩ := cutWrites_cons s a rest
    · rw [h, ih s.drawn hb]; rfl
    · have hk : (memWrite a v s.drawn).kindAt b = s.kindAt b := State.kindAt_congr (by simp) b
      rw [h, ih _ (hk ▸ hb)]
      have hw := memWrite_wroteByte s.drawn a v
      by_cases hba : b = a
      · subst hba; exact (hw.2.2 hb).1
      · exact hw.1 b hba

/-- Open writes are recorded at their own addresses. -/
theorem cutWrites_events (l : List Addr) : ∃ written : List Host.Cell,
    (cutWrites l s).events = written ++ s.events ∧
      ∀ c ∈ written, c.1 ∈ l.map BitVec.toNat := by
  induction l generalizing s with
  | nil => exact ⟨[], rfl, by simp⟩
  | cons a rest ih =>
    obtain h | ⟨v, h⟩ := cutWrites_cons s a rest
    · obtain ⟨w, he, hw⟩ := ih s.drawn
      exact ⟨w, by rw [h, he]; rfl, fun c hc => List.mem_cons_of_mem _ (hw c hc)⟩
    · obtain ⟨w, he, hw⟩ := ih (memWrite a v s.drawn)
      by_cases hk : s.drawn.kindAt a = .ram
      · refine ⟨w, ?_, fun c hc => List.mem_cons_of_mem _ (hw c hc)⟩
        rw [h, he, ((memWrite_wroteByte s.drawn a v).2.1 hk).2]; rfl
      · refine ⟨w ++ [(a.toNat, v)], ?_, ?_⟩
        · rw [h, he, ((memWrite_wroteByte s.drawn a v).2.2 hk).2]; simp
        · intro c hc
          rcases List.mem_append.mp hc with hc | hc
          · exact List.mem_cons_of_mem _ (hw c hc)
          · rw [List.mem_singleton.mp hc]; exact List.mem_cons_self

/-- Open writes keep a state well-formed. -/
theorem cutWrites_wf (l : List Addr) (h : s.wf = true) : (cutWrites l s).wf = true := by
  induction l generalizing s with
  | nil => exact h
  | cons a rest ih =>
    obtain e | ⟨v, e⟩ := cutWrites_cons s a rest
    · rw [e]; exact ih s.drawn h
    · rw [e]; exact ih _ (memWrite_wf s.drawn a v h)

@[simp] theorem cutShort_mem (l : List Addr) : (cutShort l s).mem = (cutWrites l s).mem := by
  simp [cutShort]
@[simp] theorem cutShort_events (l : List Addr) : (cutShort l s).events = (cutWrites l s).events := by
  simp [cutShort]
@[simp] theorem cutShort_cfg (l : List Addr) : (cutShort l s).cfg = s.cfg := by simp [cutShort]
@[simp] theorem cutShort_schedule (l : List Addr) : (cutShort l s).schedule = s.schedule := by
  simp [cutShort]
@[simp] theorem cutShort_nmibLow (l : List Addr) : (cutShort l s).nmibLow = s.nmibLow := by
  simp [cutShort]
@[simp] theorem cutShort_p_i (l : List Addr) : (cutShort l s).p.i = true := by simp [cutShort]
@[simp] theorem cutShort_nmiPending (l : List Addr) : (cutShort l s).nmiPending = false := by
  simp [cutShort]
@[simp] theorem cutShort_iPoll (l : List Addr) : (cutShort l s).iPoll = true := by simp [cutShort]

/-- Where a reset goes whose vector is plain (R230). -/
theorem resetSequence_pc_plain (hl : s.Plain Config.resetVector)
    (hh : s.Plain (Config.resetVector + 1#16)) :
    (resetSequence s).pc =
      joinBytes (s.byteAt (Config.resetVector + 1#16)) (s.byteAt Config.resetVector) := by
  unfold resetSequence
  simp only [State.setPc_pc, read16]
  rw [readPair_plain]
  · exact hl
  · exact hh

/-- A reset inside an instruction goes to the vector as the open writes leave it. -/
theorem cutShort_pc_plain (l : List Addr) (hl : s.Plain Config.resetVector)
    (hh : s.Plain (Config.resetVector + 1#16)) :
    (cutShort l s).pc =
      joinBytes ((cutShort l s).byteAt (Config.resetVector + 1#16))
        ((cutShort l s).byteAt Config.resetVector) := by
  have plain : ∀ a, s.Plain a → (cutWrites l s).Plain a := fun a h => by
    have hk : (cutWrites l s).kindAt a = s.kindAt a := State.kindAt_congr (by simp) a
    simpa [State.Plain, hk] using h
  have h := resetSequence_pc_plain
    { cutWrites l s with
      draws := (cutWrites l s).draws + 1
      device := Config.deviceAfterCut (cutWrites l s).device (cutWrites l s).draws }
    (plain _ hl) (plain _ hh)
  simpa [cutShort, State.byteAt] using h

/-- What a step cut short by a reset is: the entry of the accepted interrupt, or else the instruction
fetched, cut at its own writes; or the fault of its fetch. -/
theorem resetInside_cases (b : Bool) {t : State} (h : resetInside b s = .ok t) :
    (∃ e s0, interruptPoll b s = (some e, s0) ∧ t = cutShort (entryAddrs s0) s0) ∨
      ∃ s0 i s1, interruptPoll b s = (none, s0) ∧ fetch s0 = .ok (i, s1) ∧
        t = cutShort (storeAddrs i s1) s1 := by
  unfold resetInside at h
  rcases hp : interruptPoll b s with ⟨o, s0⟩
  cases o with
  | some e => rw [hp] at h; cases h; exact .inl ⟨e, s0, rfl, rfl⟩
  | none =>
    rw [hp] at h
    simp only at h
    split at h
    · cases h
    · cases h; exact .inr ⟨s0, _, _, rfl, by assumption, rfl⟩

end Sys2Proof.Machine
end

