-- ==== Sys2Proof/Tests/Slice0.lean ====
section
/-! SUPPORT. Tests with expected results from the spec: the form checks, the decoding of one word of every constructor (spec/95_test_vectors.md section 1), single steps (its sections 2 and 3), and for each statement with hypotheses a state and operands that meet them. -/

namespace Sys2Proof.Tests

open Sys2Proof.Machine

/-! ## The form checks refuse what is ill-formed -/

/-- `STA #$10`: the pair has no opcode (R94). -/
theorem test_pair_refused :
    AsmForm.pairAssigned { mnemonic := .STA, mode := .immediate, value := 0x10 } = false := by decide

/-- `LDX zp,X` does not exist: LDX is indexed by Y (R85, R86). -/
theorem test_index_refused :
    AsmForm.wellFormed { mnemonic := .LDX, mode := .zeroPageX, value := 0x10 } = false := by decide

/-- A zero-page operand of 256 does not fit a byte (R63). -/
theorem test_byte_value_refused :
    AsmForm.valueFits { mnemonic := .LDA, mode := .zeroPage, value := 256 } = false := by decide

/-- An absolute operand of 65536 does not fit 16 bits (R63). -/
theorem test_word_value_refused :
    AsmForm.valueFits { mnemonic := .JMP, mode := .absolute, value := 65536 } = false := by decide

/-- An implied form has no operand value (R62). -/
theorem test_implied_value_refused :
    AsmForm.wellFormed { mnemonic := .TAX, mode := .implied, value := 1 } = false := by decide

/-- The greatest operand of a byte and of a word are legal (R67). -/
theorem test_greatest_values_accepted :
    AsmForm.wellFormed { mnemonic := .LDA, mode := .zeroPage, value := 255 } = true ∧
    AsmForm.wellFormed { mnemonic := .JMP, mode := .absoluteIndirect, value := 65535 } = true := by
  decide

/-! ## Decoding: the sample words of 95_test_vectors.md section 1 -/

/-- The bytes as the bits of a table word: the first byte is the lowest. -/
def bitsOf : List Byte → Nat
  | [] => 0
  | b :: rest => b.toNat + 256 * bitsOf rest

/-- The bytes decode to the instruction, and the instruction encodes to the bytes. -/
def reads (r : List Byte × Instr) : Bool :=
  decide (decodeTableWord (8 * r.1.length) (bitsOf r.1) = some r.2) && decide (encode r.2 = r.1)

theorem test_decode_LoadStore : List.all
    [([0xA9#8, 0x44#8], .ldaImm 0x44#8), ([0xA5#8, 0x44#8], .ldaZp 0x44#8),
     ([0xB5#8, 0x44#8], .ldaZpX 0x44#8), ([0xAD#8, 0x00#8, 0x44#8], .ldaAbs 0x4400#16),
     ([0xBD#8, 0x00#8, 0x44#8], .ldaAbsX 0x4400#16),
     ([0xB9#8, 0x00#8, 0x44#8], .ldaAbsY 0x4400#16), ([0xA1#8, 0x44#8], .ldaIndX 0x44#8),
     ([0xB1#8, 0x44#8], .ldaIndY 0x44#8), ([0xA2#8, 0x44#8], .ldxImm 0x44#8),
     ([0xA6#8, 0x44#8], .ldxZp 0x44#8), ([0xB6#8, 0x44#8], .ldxZpY 0x44#8),
     ([0xAE#8, 0x00#8, 0x44#8], .ldxAbs 0x4400#16),
     ([0xBE#8, 0x00#8, 0x44#8], .ldxAbsY 0x4400#16), ([0xA0#8, 0x44#8], .ldyImm 0x44#8),
     ([0xA4#8, 0x44#8], .ldyZp 0x44#8), ([0xB4#8, 0x44#8], .ldyZpX 0x44#8),
     ([0xAC#8, 0x00#8, 0x44#8], .ldyAbs 0x4400#16),
     ([0xBC#8, 0x00#8, 0x44#8], .ldyAbsX 0x4400#16), ([0x85#8, 0x44#8], .staZp 0x44#8),
     ([0x95#8, 0x44#8], .staZpX 0x44#8), ([0x8D#8, 0x00#8, 0x44#8], .staAbs 0x4400#16),
     ([0x9D#8, 0x00#8, 0x44#8], .staAbsX 0x4400#16),
     ([0x99#8, 0x00#8, 0x44#8], .staAbsY 0x4400#16), ([0x81#8, 0x44#8], .staIndX 0x44#8),
     ([0x91#8, 0x44#8], .staIndY 0x44#8), ([0x86#8, 0x44#8], .stxZp 0x44#8),
     ([0x96#8, 0x44#8], .stxZpY 0x44#8), ([0x8E#8, 0x00#8, 0x44#8], .stxAbs 0x4400#16),
     ([0x84#8, 0x44#8], .styZp 0x44#8), ([0x94#8, 0x44#8], .styZpX 0x44#8),
     ([0x8C#8, 0x00#8, 0x44#8], .styAbs 0x4400#16)]
    reads = true := by decide

theorem test_decode_TransferStack : List.all
    [([0xAA#8], .tax), ([0xA8#8], .tay), ([0xBA#8], .tsx), ([0x8A#8], .txa), ([0x9A#8], .txs),
     ([0x98#8], .tya), ([0x48#8], .pha), ([0x08#8], .php), ([0x68#8], .pla), ([0x28#8], .plp)]
    reads = true := by decide

theorem test_decode_Logical : List.all
    [([0x29#8, 0x44#8], .andImm 0x44#8), ([0x25#8, 0x44#8], .andZp 0x44#8),
     ([0x35#8, 0x44#8], .andZpX 0x44#8), ([0x2D#8, 0x00#8, 0x44#8], .andAbs 0x4400#16),
     ([0x3D#8, 0x00#8, 0x44#8], .andAbsX 0x4400#16),
     ([0x39#8, 0x00#8, 0x44#8], .andAbsY 0x4400#16), ([0x21#8, 0x44#8], .andIndX 0x44#8),
     ([0x31#8, 0x44#8], .andIndY 0x44#8), ([0x49#8, 0x44#8], .eorImm 0x44#8),
     ([0x45#8, 0x44#8], .eorZp 0x44#8), ([0x55#8, 0x44#8], .eorZpX 0x44#8),
     ([0x4D#8, 0x00#8, 0x44#8], .eorAbs 0x4400#16),
     ([0x5D#8, 0x00#8, 0x44#8], .eorAbsX 0x4400#16),
     ([0x59#8, 0x00#8, 0x44#8], .eorAbsY 0x4400#16), ([0x41#8, 0x44#8], .eorIndX 0x44#8),
     ([0x51#8, 0x44#8], .eorIndY 0x44#8), ([0x09#8, 0x44#8], .oraImm 0x44#8),
     ([0x05#8, 0x44#8], .oraZp 0x44#8), ([0x15#8, 0x44#8], .oraZpX 0x44#8),
     ([0x0D#8, 0x00#8, 0x44#8], .oraAbs 0x4400#16),
     ([0x1D#8, 0x00#8, 0x44#8], .oraAbsX 0x4400#16),
     ([0x19#8, 0x00#8, 0x44#8], .oraAbsY 0x4400#16), ([0x01#8, 0x44#8], .oraIndX 0x44#8),
     ([0x11#8, 0x44#8], .oraIndY 0x44#8), ([0x24#8, 0x44#8], .bitZp 0x44#8),
     ([0x2C#8, 0x00#8, 0x44#8], .bitAbs 0x4400#16)]
    reads = true := by decide

theorem test_decode_Arithmetic : List.all
    [([0x69#8, 0x44#8], .adcImm 0x44#8), ([0x65#8, 0x44#8], .adcZp 0x44#8),
     ([0x75#8, 0x44#8], .adcZpX 0x44#8), ([0x6D#8, 0x00#8, 0x44#8], .adcAbs 0x4400#16),
     ([0x7D#8, 0x00#8, 0x44#8], .adcAbsX 0x4400#16),
     ([0x79#8, 0x00#8, 0x44#8], .adcAbsY 0x4400#16), ([0x61#8, 0x44#8], .adcIndX 0x44#8),
     ([0x71#8, 0x44#8], .adcIndY 0x44#8), ([0xE9#8, 0x44#8], .sbcImm 0x44#8),
     ([0xE5#8, 0x44#8], .sbcZp 0x44#8), ([0xF5#8, 0x44#8], .sbcZpX 0x44#8),
     ([0xED#8, 0x00#8, 0x44#8], .sbcAbs 0x4400#16),
     ([0xFD#8, 0x00#8, 0x44#8], .sbcAbsX 0x4400#16),
     ([0xF9#8, 0x00#8, 0x44#8], .sbcAbsY 0x4400#16), ([0xE1#8, 0x44#8], .sbcIndX 0x44#8),
     ([0xF1#8, 0x44#8], .sbcIndY 0x44#8), ([0xC9#8, 0x44#8], .cmpImm 0x44#8),
     ([0xC5#8, 0x44#8], .cmpZp 0x44#8), ([0xD5#8, 0x44#8], .cmpZpX 0x44#8),
     ([0xCD#8, 0x00#8, 0x44#8], .cmpAbs 0x4400#16),
     ([0xDD#8, 0x00#8, 0x44#8], .cmpAbsX 0x4400#16),
     ([0xD9#8, 0x00#8, 0x44#8], .cmpAbsY 0x4400#16), ([0xC1#8, 0x44#8], .cmpIndX 0x44#8),
     ([0xD1#8, 0x44#8], .cmpIndY 0x44#8), ([0xE0#8, 0x44#8], .cpxImm 0x44#8),
     ([0xE4#8, 0x44#8], .cpxZp 0x44#8), ([0xEC#8, 0x00#8, 0x44#8], .cpxAbs 0x4400#16),
     ([0xC0#8, 0x44#8], .cpyImm 0x44#8), ([0xC4#8, 0x44#8], .cpyZp 0x44#8),
     ([0xCC#8, 0x00#8, 0x44#8], .cpyAbs 0x4400#16)]
    reads = true := by decide

theorem test_decode_IncDec : List.all
    [([0xC6#8, 0x44#8], .decZp 0x44#8), ([0xD6#8, 0x44#8], .decZpX 0x44#8),
     ([0xCE#8, 0x00#8, 0x44#8], .decAbs 0x4400#16),
     ([0xDE#8, 0x00#8, 0x44#8], .decAbsX 0x4400#16), ([0xCA#8], .dex), ([0x88#8], .dey),
     ([0xE6#8, 0x44#8], .incZp 0x44#8), ([0xF6#8, 0x44#8], .incZpX 0x44#8),
     ([0xEE#8, 0x00#8, 0x44#8], .incAbs 0x4400#16),
     ([0xFE#8, 0x00#8, 0x44#8], .incAbsX 0x4400#16), ([0xE8#8], .inx), ([0xC8#8], .iny)]
    reads = true := by decide

theorem test_decode_ShiftRotate : List.all
    [([0x0A#8], .aslAcc), ([0x06#8, 0x44#8], .aslZp 0x44#8), ([0x16#8, 0x44#8], .aslZpX 0x44#8),
     ([0x0E#8, 0x00#8, 0x44#8], .aslAbs 0x4400#16),
     ([0x1E#8, 0x00#8, 0x44#8], .aslAbsX 0x4400#16), ([0x4A#8], .lsrAcc),
     ([0x46#8, 0x44#8], .lsrZp 0x44#8), ([0x56#8, 0x44#8], .lsrZpX 0x44#8),
     ([0x4E#8, 0x00#8, 0x44#8], .lsrAbs 0x4400#16),
     ([0x5E#8, 0x00#8, 0x44#8], .lsrAbsX 0x4400#16), ([0x2A#8], .rolAcc),
     ([0x26#8, 0x44#8], .rolZp 0x44#8), ([0x36#8, 0x44#8], .rolZpX 0x44#8),
     ([0x2E#8, 0x00#8, 0x44#8], .rolAbs 0x4400#16),
     ([0x3E#8, 0x00#8, 0x44#8], .rolAbsX 0x4400#16), ([0x6A#8], .rorAcc),
     ([0x66#8, 0x44#8], .rorZp 0x44#8), ([0x76#8, 0x44#8], .rorZpX 0x44#8),
     ([0x6E#8, 0x00#8, 0x44#8], .rorAbs 0x4400#16),
     ([0x7E#8, 0x00#8, 0x44#8], .rorAbsX 0x4400#16)]
    reads = true := by decide

theorem test_decode_BranchJump : List.all
    [([0x90#8, 0x10#8], .bcc 0x10#8), ([0xB0#8, 0x10#8], .bcs 0x10#8),
     ([0xF0#8, 0x10#8], .beq 0x10#8), ([0x30#8, 0x10#8], .bmi 0x10#8),
     ([0xD0#8, 0x10#8], .bne 0x10#8), ([0x10#8, 0x10#8], .bpl 0x10#8),
     ([0x50#8, 0x10#8], .bvc 0x10#8), ([0x70#8, 0x10#8], .bvs 0x10#8),
     ([0x4C#8, 0x00#8, 0x44#8], .jmpAbs 0x4400#16),
     ([0x6C#8, 0x00#8, 0x44#8], .jmpInd 0x4400#16), ([0x20#8, 0x00#8, 0x44#8], .jsr 0x4400#16),
     ([0x60#8], .rts)]
    reads = true := by decide

theorem test_decode_FlagOps : List.all
    [([0x18#8], .clc), ([0xD8#8], .cld), ([0x58#8], .cli), ([0xB8#8], .clv), ([0x38#8], .sec),
     ([0xF8#8], .sed), ([0x78#8], .sei)]
    reads = true := by decide

theorem test_decode_System : List.all
    [([0x00#8], .brk), ([0xEA#8], .nop), ([0x40#8], .rti)]
    reads = true := by decide

/-- 80, 02 and FF do not decode, and an operand byte that is missing is said by name. -/
theorem test_decode_refuses :
    decodeTableWord 24 0x000080 = none ∧ decodeTableWord 24 0x000002 = none ∧
    decodeTableWord 24 0x0000FF = none := by decide

theorem test_decode_truncated : decode [0xAD#8, 0x00#8] = .error (.truncated 0xAD#8) := rfl

/-! ## Single steps: sections 2 and 3 -/

/-- Memory from a list of addresses and bytes. -/
def memOf (cells : List (Nat × Nat)) (m : Memory) : Memory :=
  cells.foldl (fun m c => m.write c.1 (BitVec.ofNat 8 c.2)) m

/-- A state of the default platform, its P given as the byte of R26. -/
def start (pc a x y sp p : Nat) (cells : List (Nat × Nat)) : State :=
  { State.reset with
    a := BitVec.ofNat 8 a, x := BitVec.ofNat 8 x, y := BitVec.ofNat 8 y, sp := BitVec.ofNat 8 sp
    pc := BitVec.ofNat 16 pc, p := unpackP (BitVec.ofNat 8 p), iPoll := Nat.testBit p 2
    mem := memOf cells [] }

/-- The step answers the state of the vector's result column: the registers, P, and memory with just
the listed writes. -/
def gives (s : State) (pc a x y sp p : Nat) (cells : List (Nat × Nat)) : Bool :=
  match step s with
  | .next t =>
    t.pc.toNat == pc && t.a.toNat == a && t.x.toNat == x && t.y.toNat == y && t.sp.toNat == sp &&
      (packP false t.p).toNat == p + 0x20 && t.mem == memOf cells s.mem
  | .fault _ => false
  | .refused _ => false

/-- V-LS1: `LDA #$00`. -/
theorem test_V_LS1 :
    gives (start 0x0600 0x55 0x00 0x00 0xFF 0x00
      [(0x0600, 0xA9), (0x0601, 0x00)])
      0x0602 0x00 0x00 0x00 0xFF 0x02 [] = true := by decide

/-- V-LS2: `LDA #$80`. -/
theorem test_V_LS2 :
    gives (start 0x0600 0x00 0x00 0x00 0xFF 0x00
      [(0x0600, 0xA9), (0x0601, 0x80)])
      0x0602 0x80 0x00 0x00 0xFF 0x80 [] = true := by decide

/-- V-LS3: `LDA $80,X`. -/
theorem test_V_LS3 :
    gives (start 0x0600 0x00 0xFF 0x00 0xFF 0x00
      [(0x007F, 0x11), (0x017F, 0x22), (0x0600, 0xB5), (0x0601, 0x80)])
      0x0602 0x11 0xFF 0x00 0xFF 0x00 [] = true := by decide

/-- V-LS4: `LDA $FFFF,X`. -/
theorem test_V_LS4 :
    gives (start 0x0600 0x00 0x01 0x00 0xFF 0x00
      [(0x0000, 0x33), (0x0600, 0xBD), (0x0601, 0xFF), (0x0602, 0xFF)])
      0x0603 0x33 0x01 0x00 0xFF 0x00 [] = true := by decide

/-- V-LS5: `LDA ($FF,X)`. -/
theorem test_V_LS5 :
    gives (start 0x0600 0x00 0x00 0x00 0xFF 0x00
      [(0x00FF, 0x34), (0x0000, 0x12), (0x0100, 0x99), (0x1234, 0x77), (0x0600, 0xA1), (0x0601, 0xFF)])
      0x0602 0x77 0x00 0x00 0xFF 0x00 [] = true := by decide

/-- V-LS6: `LDA ($F0,X)`. -/
theorem test_V_LS6 :
    gives (start 0x0600 0x00 0x20 0x00 0xFF 0x00
      [(0x0010, 0x00), (0x0011, 0x30), (0x3000, 0x80), (0x0600, 0xA1), (0x0601, 0xF0)])
      0x0602 0x80 0x20 0x00 0xFF 0x80 [] = true := by decide

/-- V-LS7: `LDA ($FF),Y`. -/
theorem test_V_LS7 :
    gives (start 0x0600 0x00 0x00 0x10 0xFF 0x00
      [(0x00FF, 0xF8), (0x0000, 0x20), (0x2108, 0x00), (0x0600, 0xB1), (0x0601, 0xFF)])
      0x0602 0x00 0x00 0x10 0xFF 0x02 [] = true := by decide

/-- V-LS8: `LDA $12F0,Y`. -/
theorem test_V_LS8 :
    gives (start 0x0600 0x00 0x00 0x20 0xFF 0x00
      [(0x1310, 0x7F), (0x0600, 0xB9), (0x0601, 0xF0), (0x0602, 0x12)])
      0x0603 0x7F 0x00 0x20 0xFF 0x00 [] = true := by decide

/-- V-LS9: `LDX $F0,Y`. -/
theorem test_V_LS9 :
    gives (start 0x0600 0x00 0x00 0x20 0xFF 0x00
      [(0x0010, 0xFE), (0x0600, 0xB6), (0x0601, 0xF0)])
      0x0602 0x00 0xFE 0x20 0xFF 0x80 [] = true := by decide

/-- V-LS10: `LDY $0200,X`. -/
theorem test_V_LS10 :
    gives (start 0x0600 0x00 0x05 0x00 0xFF 0x80
      [(0x0205, 0x00), (0x0600, 0xBC), (0x0601, 0x00), (0x0602, 0x02)])
      0x0603 0x00 0x05 0x00 0xFF 0x02 [] = true := by decide

/-- V-LS11: `STA $0200`. -/
theorem test_V_LS11 :
    gives (start 0x0600 0x00 0x00 0x00 0xFF 0x81
      [(0x0600, 0x8D), (0x0601, 0x00), (0x0602, 0x02)])
      0x0603 0x00 0x00 0x00 0xFF 0x81 [(0x0200, 0x00)] = true := by decide

/-- V-LS12: `STA ($20),Y`. -/
theorem test_V_LS12 :
    gives (start 0x0600 0xAB 0x00 0xFF 0xFF 0x00
      [(0x0020, 0x01), (0x0021, 0x40), (0x0600, 0x91), (0x0601, 0x20)])
      0x0602 0xAB 0x00 0xFF 0xFF 0x00 [(0x4100, 0xAB)] = true := by decide

/-- V-LS13: `STX $FF,Y`. -/
theorem test_V_LS13 :
    gives (start 0x0600 0x00 0x42 0x02 0xFF 0x00
      [(0x0600, 0x96), (0x0601, 0xFF)])
      0x0602 0x00 0x42 0x02 0xFF 0x00 [(0x0001, 0x42)] = true := by decide

/-- V-LS14: `STY $10,X`. -/
theorem test_V_LS14 :
    gives (start 0x0600 0x00 0x01 0x99 0xFF 0x00
      [(0x0600, 0x94), (0x0601, 0x10)])
      0x0602 0x00 0x01 0x99 0xFF 0x00 [(0x0011, 0x99)] = true := by decide

/-- V-LS15: `STA $FF00,X`. -/
theorem test_V_LS15 :
    gives (start 0x0600 0x5A 0xFF 0x00 0xFF 0x00
      [(0x0600, 0x9D), (0x0601, 0x00), (0x0602, 0xFF)])
      0x0603 0x5A 0xFF 0x00 0xFF 0x00 [(0xFFFF, 0x5A)] = true := by decide

/-- V-TS1: `TAX`. -/
theorem test_V_TS1 :
    gives (start 0x0600 0x00 0x11 0x00 0xFF 0x00
      [(0x0600, 0xAA)])
      0x0601 0x00 0x00 0x00 0xFF 0x02 [] = true := by decide

/-- V-TS2: `TAY`. -/
theorem test_V_TS2 :
    gives (start 0x0600 0xF0 0x00 0x00 0xFF 0x00
      [(0x0600, 0xA8)])
      0x0601 0xF0 0x00 0xF0 0xFF 0x80 [] = true := by decide

/-- V-TS3: `TXA`. -/
theorem test_V_TS3 :
    gives (start 0x0600 0x80 0x7F 0x00 0xFF 0x82
      [(0x0600, 0x8A)])
      0x0601 0x7F 0x7F 0x00 0xFF 0x00 [] = true := by decide

/-- V-TS4: `TYA`. -/
theorem test_V_TS4 :
    gives (start 0x0600 0x01 0x00 0x00 0xFF 0x00
      [(0x0600, 0x98)])
      0x0601 0x00 0x00 0x00 0xFF 0x02 [] = true := by decide

/-- V-TS5: `TSX`. -/
theorem test_V_TS5 :
    gives (start 0x0600 0x00 0x00 0x00 0xFD 0x00
      [(0x0600, 0xBA)])
      0x0601 0x00 0xFD 0x00 0xFD 0x80 [] = true := by decide

/-- V-TS6: `TXS`. -/
theorem test_V_TS6 :
    gives (start 0x0600 0x00 0x00 0x00 0xFF 0x80
      [(0x0600, 0x9A)])
      0x0601 0x00 0x00 0x00 0x00 0x80 [] = true := by decide

/-- V-TS7: `PHA`. -/
theorem test_V_TS7 :
    gives (start 0x0600 0x42 0x00 0x00 0x00 0x00
      [(0x0600, 0x48)])
      0x0601 0x42 0x00 0x00 0xFF 0x00 [(0x0100, 0x42)] = true := by decide

/-- V-TS8: `PLA`. -/
theorem test_V_TS8 :
    gives (start 0x0600 0x00 0x00 0x00 0xFF 0x00
      [(0x0100, 0x80), (0x0600, 0x68)])
      0x0601 0x80 0x00 0x00 0x00 0x80 [] = true := by decide

/-- V-TS10: `PHP`. -/
theorem test_V_TS10 :
    gives (start 0x0600 0x00 0x00 0x00 0xFF 0x00
      [(0x0600, 0x08)])
      0x0601 0x00 0x00 0x00 0xFE 0x00 [(0x01FF, 0x30)] = true := by decide

/-- V-TS11: `PHP`. -/
theorem test_V_TS11 :
    gives (start 0x0600 0x00 0x00 0x00 0xFF 0x07
      [(0x0600, 0x08)])
      0x0601 0x00 0x00 0x00 0xFE 0x07 [(0x01FF, 0x37)] = true := by decide

/-- V-TS13: `PLP`. -/
theorem test_V_TS13 :
    gives (start 0x0600 0x00 0x00 0x00 0xFE 0xCF
      [(0x01FF, 0x30), (0x0600, 0x28)])
      0x0601 0x00 0x00 0x00 0xFF 0x00 [] = true := by decide

/-- V-TS14: `PLP`. -/
theorem test_V_TS14 :
    gives (start 0x0600 0x00 0x00 0x00 0xFE 0x00
      [(0x01FF, 0xCF), (0x0600, 0x28)])
      0x0601 0x00 0x00 0x00 0xFF 0xCF [] = true := by decide

/-- V-TS15: `PLA`. -/
theorem test_V_TS15 :
    gives (start 0x0600 0xFF 0x00 0x00 0x7F 0x00
      [(0x0180, 0x00), (0x0600, 0x68)])
      0x0601 0x00 0x00 0x00 0x80 0x02 [] = true := by decide

/-- V-LG1: `AND #$0F`. -/
theorem test_V_LG1 :
    gives (start 0x0600 0xF0 0x00 0x00 0xFF 0x00
      [(0x0600, 0x29), (0x0601, 0x0F)])
      0x0602 0x00 0x00 0x00 0xFF 0x02 [] = true := by decide

/-- V-LG2: `AND #$F0`. -/
theorem test_V_LG2 :
    gives (start 0x0600 0x9C 0x00 0x00 0xFF 0x00
      [(0x0600, 0x29), (0x0601, 0xF0)])
      0x0602 0x90 0x00 0x00 0xFF 0x80 [] = true := by decide

/-- V-LG3: `EOR #$FF`. -/
theorem test_V_LG3 :
    gives (start 0x0600 0xFF 0x00 0x00 0xFF 0x00
      [(0x0600, 0x49), (0x0601, 0xFF)])
      0x0602 0x00 0x00 0x00 0xFF 0x02 [] = true := by decide

/-- V-LG4: `EOR $10`. -/
theorem test_V_LG4 :
    gives (start 0x0600 0x0F 0x00 0x00 0xFF 0x00
      [(0x0010, 0x8F), (0x0600, 0x45), (0x0601, 0x10)])
      0x0602 0x80 0x00 0x00 0xFF 0x80 [] = true := by decide

/-- V-LG5: `ORA #$00`. -/
theorem test_V_LG5 :
    gives (start 0x0600 0x00 0x00 0x00 0xFF 0x80
      [(0x0600, 0x09), (0x0601, 0x00)])
      0x0602 0x00 0x00 0x00 0xFF 0x02 [] = true := by decide

/-- V-LG6: `ORA $0300,Y`. -/
theorem test_V_LG6 :
    gives (start 0x0600 0x01 0x00 0x01 0xFF 0x00
      [(0x0301, 0x80), (0x0600, 0x19), (0x0601, 0x00), (0x0602, 0x03)])
      0x0603 0x81 0x00 0x01 0xFF 0x80 [] = true := by decide

/-- V-LG7: `BIT $10`. -/
theorem test_V_LG7 :
    gives (start 0x0600 0x00 0x00 0x00 0xFF 0x00
      [(0x0010, 0xC0), (0x0600, 0x24), (0x0601, 0x10)])
      0x0602 0x00 0x00 0x00 0xFF 0xC2 [] = true := by decide

/-- V-LG8: `BIT $10`. -/
theorem test_V_LG8 :
    gives (start 0x0600 0x01 0x00 0x00 0xFF 0xC2
      [(0x0010, 0x3F), (0x0600, 0x24), (0x0601, 0x10)])
      0x0602 0x01 0x00 0x00 0xFF 0x00 [] = true := by decide

/-- V-LG9: `BIT $1234`. -/
theorem test_V_LG9 :
    gives (start 0x0600 0xFF 0x00 0x00 0xFF 0x00
      [(0x1234, 0x40), (0x0600, 0x2C), (0x0601, 0x34), (0x0602, 0x12)])
      0x0603 0xFF 0x00 0x00 0xFF 0x40 [] = true := by decide

/-- V-AR4: `ADC #$80`. -/
theorem test_V_AR4 :
    gives (start 0x0600 0x80 0x00 0x00 0xFF 0x00
      [(0x0600, 0x69), (0x0601, 0x80)])
      0x0602 0x00 0x00 0x00 0xFF 0x43 [] = true := by decide

/-- V-AR10: `SBC #$01`. -/
theorem test_V_AR10 :
    gives (start 0x0600 0x80 0x00 0x00 0xFF 0x01
      [(0x0600, 0xE9), (0x0601, 0x01)])
      0x0602 0x7F 0x00 0x00 0xFF 0x41 [] = true := by decide

/-- V-AR15: `ADC #$46 (D=1)`. -/
theorem test_V_AR15 :
    gives (start 0x0600 0x58 0x00 0x00 0xFF 0x09
      [(0x0600, 0x69), (0x0601, 0x46)])
      0x0602 0x05 0x00 0x00 0xFF 0xC9 [] = true := by decide

/-- V-AR21: `SBC #$01 (D=1)`. -/
theorem test_V_AR21 :
    gives (start 0x0600 0x00 0x00 0x00 0xFF 0x09
      [(0x0600, 0xE9), (0x0601, 0x01)])
      0x0602 0x99 0x00 0x00 0xFF 0x88 [] = true := by decide

/-- V-AR22: `CMP #$40`. -/
theorem test_V_AR22 :
    gives (start 0x0600 0x40 0x00 0x00 0xFF 0xC0
      [(0x0600, 0xC9), (0x0601, 0x40)])
      0x0602 0x40 0x00 0x00 0xFF 0x43 [] = true := by decide

/-- V-AR25: `CMP #$FF`. -/
theorem test_V_AR25 :
    gives (start 0x0600 0x00 0x00 0x00 0xFF 0x00
      [(0x0600, 0xC9), (0x0601, 0xFF)])
      0x0602 0x00 0x00 0x00 0xFF 0x00 [] = true := by decide

/-- V-AR26: `CPX $10`. -/
theorem test_V_AR26 :
    gives (start 0x0600 0x00 0x10 0x00 0xFF 0x00
      [(0x0010, 0x0F), (0x0600, 0xE4), (0x0601, 0x10)])
      0x0602 0x00 0x10 0x00 0xFF 0x01 [] = true := by decide

/-- V-AR27: `CPY #$80`. -/
theorem test_V_AR27 :
    gives (start 0x0600 0x00 0x00 0x00 0xFF 0x00
      [(0x0600, 0xC0), (0x0601, 0x80)])
      0x0602 0x00 0x00 0x00 0xFF 0x80 [] = true := by decide

/-- V-ID1: `INC $10`. -/
theorem test_V_ID1 :
    gives (start 0x0600 0x00 0x00 0x00 0xFF 0x00
      [(0x0010, 0xFF), (0x0600, 0xE6), (0x0601, 0x10)])
      0x0602 0x00 0x00 0x00 0xFF 0x02 [(0x0010, 0x00)] = true := by decide

/-- V-ID2: `INC $0200,X`. -/
theorem test_V_ID2 :
    gives (start 0x0600 0x00 0x01 0x00 0xFF 0x01
      [(0x0201, 0x7F), (0x0600, 0xFE), (0x0601, 0x00), (0x0602, 0x02)])
      0x0603 0x00 0x01 0x00 0xFF 0x81 [(0x0201, 0x80)] = true := by decide

/-- V-ID3: `DEC $10`. -/
theorem test_V_ID3 :
    gives (start 0x0600 0x00 0x00 0x00 0xFF 0x00
      [(0x0010, 0x00), (0x0600, 0xC6), (0x0601, 0x10)])
      0x0602 0x00 0x00 0x00 0xFF 0x80 [(0x0010, 0xFF)] = true := by decide

/-- V-ID4: `DEC $10,X`. -/
theorem test_V_ID4 :
    gives (start 0x0600 0x00 0xF8 0x00 0xFF 0x00
      [(0x0008, 0x01), (0x0600, 0xD6), (0x0601, 0x10)])
      0x0602 0x00 0xF8 0x00 0xFF 0x02 [(0x0008, 0x00)] = true := by decide

/-- V-ID5: `INX`. -/
theorem test_V_ID5 :
    gives (start 0x0600 0x00 0xFF 0x00 0xFF 0x00
      [(0x0600, 0xE8)])
      0x0601 0x00 0x00 0x00 0xFF 0x02 [] = true := by decide

/-- V-ID6: `INY`. -/
theorem test_V_ID6 :
    gives (start 0x0600 0x00 0x00 0x7F 0xFF 0x00
      [(0x0600, 0xC8)])
      0x0601 0x00 0x00 0x80 0xFF 0x80 [] = true := by decide

/-- V-ID7: `DEX`. -/
theorem test_V_ID7 :
    gives (start 0x0600 0x00 0x00 0x00 0xFF 0x00
      [(0x0600, 0xCA)])
      0x0601 0x00 0xFF 0x00 0xFF 0x80 [] = true := by decide

/-- V-ID8: `DEY`. -/
theorem test_V_ID8 :
    gives (start 0x0600 0x00 0x00 0x01 0xFF 0x00
      [(0x0600, 0x88)])
      0x0601 0x00 0x00 0x00 0xFF 0x02 [] = true := by decide

/-- V-SH1: `ASL A`. -/
theorem test_V_SH1 :
    gives (start 0x0600 0x80 0x00 0x00 0xFF 0x00
      [(0x0600, 0x0A)])
      0x0601 0x00 0x00 0x00 0xFF 0x03 [] = true := by decide

/-- V-SH2: `ASL A`. -/
theorem test_V_SH2 :
    gives (start 0x0600 0x40 0x00 0x00 0xFF 0x01
      [(0x0600, 0x0A)])
      0x0601 0x80 0x00 0x00 0xFF 0x80 [] = true := by decide

/-- V-SH3: `ASL $10`. -/
theorem test_V_SH3 :
    gives (start 0x0600 0x11 0x00 0x00 0xFF 0x00
      [(0x0010, 0xC1), (0x0600, 0x06), (0x0601, 0x10)])
      0x0602 0x11 0x00 0x00 0xFF 0x81 [(0x0010, 0x82)] = true := by decide

/-- V-SH4: `LSR A`. -/
theorem test_V_SH4 :
    gives (start 0x0600 0x01 0x00 0x00 0xFF 0x80
      [(0x0600, 0x4A)])
      0x0601 0x00 0x00 0x00 0xFF 0x03 [] = true := by decide

/-- V-SH5: `LSR $0200`. -/
theorem test_V_SH5 :
    gives (start 0x0600 0x00 0x00 0x00 0xFF 0x00
      [(0x0200, 0xFE), (0x0600, 0x4E), (0x0601, 0x00), (0x0602, 0x02)])
      0x0603 0x00 0x00 0x00 0xFF 0x00 [(0x0200, 0x7F)] = true := by decide

/-- V-SH6: `ROL A`. -/
theorem test_V_SH6 :
    gives (start 0x0600 0x80 0x00 0x00 0xFF 0x01
      [(0x0600, 0x2A)])
      0x0601 0x01 0x00 0x00 0xFF 0x01 [] = true := by decide

/-- V-SH7: `ROL A`. -/
theorem test_V_SH7 :
    gives (start 0x0600 0x80 0x00 0x00 0xFF 0x00
      [(0x0600, 0x2A)])
      0x0601 0x00 0x00 0x00 0xFF 0x03 [] = true := by decide

/-- V-SH8: `ROL $10,X`. -/
theorem test_V_SH8 :
    gives (start 0x0600 0x00 0x01 0x00 0xFF 0x01
      [(0x0011, 0x55), (0x0600, 0x36), (0x0601, 0x10)])
      0x0602 0x00 0x01 0x00 0xFF 0x80 [(0x0011, 0xAB)] = true := by decide

/-- V-SH9: `ROR A`. -/
theorem test_V_SH9 :
    gives (start 0x0600 0x01 0x00 0x00 0xFF 0x00
      [(0x0600, 0x6A)])
      0x0601 0x00 0x00 0x00 0xFF 0x03 [] = true := by decide

/-- V-SH10: `ROR A`. -/
theorem test_V_SH10 :
    gives (start 0x0600 0x00 0x00 0x00 0xFF 0x01
      [(0x0600, 0x6A)])
      0x0601 0x80 0x00 0x00 0xFF 0x80 [] = true := by decide

/-- V-SH11: `ROR $0200,X`. -/
theorem test_V_SH11 :
    gives (start 0x0600 0x00 0x02 0x00 0xFF 0x01
      [(0x0202, 0x03), (0x0600, 0x7E), (0x0601, 0x00), (0x0602, 0x02)])
      0x0603 0x00 0x02 0x00 0xFF 0x81 [(0x0202, 0x81)] = true := by decide

/-- V-BJ1: `BNE *+6`. -/
theorem test_V_BJ1 :
    gives (start 0x0600 0x00 0x00 0x00 0xFF 0x00
      [(0x0600, 0xD0), (0x0601, 0x04)])
      0x0606 0x00 0x00 0x00 0xFF 0x00 [] = true := by decide

/-- V-BJ2: `BNE *+6`. -/
theorem test_V_BJ2 :
    gives (start 0x0600 0x00 0x00 0x00 0xFF 0x02
      [(0x0600, 0xD0), (0x0601, 0x04)])
      0x0602 0x00 0x00 0x00 0xFF 0x02 [] = true := by decide

/-- V-BJ3: `BEQ *-2`. -/
theorem test_V_BJ3 :
    gives (start 0x0600 0x00 0x00 0x00 0xFF 0x02
      [(0x0600, 0xF0), (0x0601, 0xFC)])
      0x05FE 0x00 0x00 0x00 0xFF 0x02 [] = true := by decide

/-- V-BJ4: `BCC`. -/
theorem test_V_BJ4 :
    gives (start 0x06F0 0x00 0x00 0x00 0xFF 0x00
      [(0x06F0, 0x90), (0x06F1, 0x7F)])
      0x0771 0x00 0x00 0x00 0xFF 0x00 [] = true := by decide

/-- V-BJ5: `BCS`. -/
theorem test_V_BJ5 :
    gives (start 0x0600 0x00 0x00 0x00 0xFF 0x01
      [(0x0600, 0xB0), (0x0601, 0x80)])
      0x0582 0x00 0x00 0x00 0xFF 0x01 [] = true := by decide

/-- V-BJ6: `BPL`. -/
theorem test_V_BJ6 :
    gives (start 0xFFF8 0x00 0x00 0x00 0xFF 0x00
      [(0xFFF8, 0x10), (0xFFF9, 0x10)])
      0x000A 0x00 0x00 0x00 0xFF 0x00 [] = true := by decide

/-- V-BJ7: `BMI`. -/
theorem test_V_BJ7 :
    gives (start 0x0002 0x00 0x00 0x00 0xFF 0x80
      [(0x0002, 0x30), (0x0003, 0xF0)])
      0xFFF4 0x00 0x00 0x00 0xFF 0x80 [] = true := by decide

/-- V-BJ8: `BVC`. -/
theorem test_V_BJ8 :
    gives (start 0x0600 0x00 0x00 0x00 0xFF 0x00
      [(0x0600, 0x50), (0x0601, 0x00)])
      0x0602 0x00 0x00 0x00 0xFF 0x00 [] = true := by decide

/-- V-BJ9: `BVS`. -/
theorem test_V_BJ9 :
    gives (start 0x0600 0x00 0x00 0x00 0xFF 0x40
      [(0x0600, 0x70), (0x0601, 0xFE)])
      0x0600 0x00 0x00 0x00 0xFF 0x40 [] = true := by decide

/-- V-BJ10: `JMP $1234`. -/
theorem test_V_BJ10 :
    gives (start 0x0600 0x00 0x00 0x00 0xFF 0x00
      [(0x0600, 0x4C), (0x0601, 0x34), (0x0602, 0x12)])
      0x1234 0x00 0x00 0x00 0xFF 0x00 [] = true := by decide

/-- V-BJ11: `JMP ($0300)`. -/
theorem test_V_BJ11 :
    gives (start 0x0600 0x00 0x00 0x00 0xFF 0x00
      [(0x0300, 0x78), (0x0301, 0x56), (0x0600, 0x6C), (0x0601, 0x00), (0x0602, 0x03)])
      0x5678 0x00 0x00 0x00 0xFF 0x00 [] = true := by decide

/-- V-BJ12: `JMP ($02FF)`. -/
theorem test_V_BJ12 :
    gives (start 0x0600 0x00 0x00 0x00 0xFF 0x00
      [(0x02FF, 0x78), (0x0300, 0x56), (0x0200, 0x9A), (0x0600, 0x6C), (0x0601, 0xFF), (0x0602, 0x02)])
      0x9A78 0x00 0x00 0x00 0xFF 0x00 [] = true := by decide

/-- V-BJ13: `JSR $0620`. -/
theorem test_V_BJ13 :
    gives (start 0x0603 0x00 0x00 0x00 0xFF 0x00
      [(0x0603, 0x20), (0x0604, 0x20), (0x0605, 0x06)])
      0x0620 0x00 0x00 0x00 0xFD 0x00 [(0x01FF, 0x06), (0x01FE, 0x05)] = true := by decide

/-- V-BJ14: `JSR $1000`. -/
theorem test_V_BJ14 :
    gives (start 0x0600 0x00 0x00 0x00 0x00 0x00
      [(0x0600, 0x20), (0x0601, 0x00), (0x0602, 0x10)])
      0x1000 0x00 0x00 0x00 0xFE 0x00 [(0x0100, 0x06), (0x01FF, 0x02)] = true := by decide

/-- V-BJ15: `RTS`. -/
theorem test_V_BJ15 :
    gives (start 0x0620 0x00 0x00 0x00 0xFD 0x00
      [(0x01FE, 0x05), (0x01FF, 0x06), (0x0620, 0x60)])
      0x0606 0x00 0x00 0x00 0xFF 0x00 [] = true := by decide

/-- V-BJ16: `RTS`. -/
theorem test_V_BJ16 :
    gives (start 0x0620 0x00 0x00 0x00 0xFE 0x00
      [(0x01FF, 0xFF), (0x0100, 0xFF), (0x0620, 0x60)])
      0x0000 0x00 0x00 0x00 0x00 0x00 [] = true := by decide

/-- V-FL1: `CLC`. -/
theorem test_V_FL1 :
    gives (start 0x0600 0x00 0x00 0x00 0xFF 0xCF
      [(0x0600, 0x18)])
      0x0601 0x00 0x00 0x00 0xFF 0xCE [] = true := by decide

/-- V-FL2: `CLD`. -/
theorem test_V_FL2 :
    gives (start 0x0600 0x00 0x00 0x00 0xFF 0xCF
      [(0x0600, 0xD8)])
      0x0601 0x00 0x00 0x00 0xFF 0xC7 [] = true := by decide

/-- V-FL3: `CLI`. -/
theorem test_V_FL3 :
    gives (start 0x0600 0x00 0x00 0x00 0xFF 0xCF
      [(0x0600, 0x58)])
      0x0601 0x00 0x00 0x00 0xFF 0xCB [] = true := by decide

/-- V-FL4: `CLV`. -/
theorem test_V_FL4 :
    gives (start 0x0600 0x00 0x00 0x00 0xFF 0xCF
      [(0x0600, 0xB8)])
      0x0601 0x00 0x00 0x00 0xFF 0x8F [] = true := by decide

/-- V-FL5: `SEC`. -/
theorem test_V_FL5 :
    gives (start 0x0600 0x00 0x00 0x00 0xFF 0x00
      [(0x0600, 0x38)])
      0x0601 0x00 0x00 0x00 0xFF 0x01 [] = true := by decide

/-- V-FL6: `SED`. -/
theorem test_V_FL6 :
    gives (start 0x0600 0x00 0x00 0x00 0xFF 0x00
      [(0x0600, 0xF8)])
      0x0601 0x00 0x00 0x00 0xFF 0x08 [] = true := by decide

/-- V-FL7: `SEI`. -/
theorem test_V_FL7 :
    gives (start 0x0600 0x00 0x00 0x00 0xFF 0x00
      [(0x0600, 0x78)])
      0x0601 0x00 0x00 0x00 0xFF 0x04 [] = true := by decide

/-- V-SY1: `BRK`. -/
theorem test_V_SY1 :
    gives (start 0x0600 0x00 0x00 0x00 0xFF 0x02
      [(0xFFFE, 0x00), (0xFFFF, 0x07), (0x0600, 0x00)])
      0x0700 0x00 0x00 0x00 0xFC 0x06 [(0x01FF, 0x06), (0x01FE, 0x02), (0x01FD, 0x32)] = true := by decide

/-- V-SY2: `BRK`. -/
theorem test_V_SY2 :
    gives (start 0x12FF 0x00 0x00 0x00 0x01 0xCF
      [(0xFFFE, 0x00), (0xFFFF, 0x07), (0x12FF, 0x00)])
      0x0700 0x00 0x00 0x00 0xFE 0xCF [(0x0101, 0x13), (0x0100, 0x01), (0x01FF, 0xFF)] = true := by decide

/-- V-SY3: `NOP`. -/
theorem test_V_SY3 :
    gives (start 0x0600 0x00 0x00 0x00 0xFF 0x81
      [(0x0600, 0xEA)])
      0x0601 0x00 0x00 0x00 0xFF 0x81 [] = true := by decide

/-- V-SY4: `RTI`. -/
theorem test_V_SY4 :
    gives (start 0x0700 0x00 0x00 0x00 0xFC 0x04
      [(0x01FD, 0x32), (0x01FE, 0x02), (0x01FF, 0x06), (0x0700, 0x40)])
      0x0602 0x00 0x00 0x00 0xFF 0x02 [] = true := by decide

/-- V-SY5: `RTI`. -/
theorem test_V_SY5 :
    gives (start 0x0700 0x00 0x00 0x00 0xFE 0x00
      [(0x01FF, 0xFF), (0x0100, 0x34), (0x0101, 0x12), (0x0700, 0x40)])
      0x1234 0x00 0x00 0x00 0x01 0xCF [] = true := by decide

/-- V-AR1, V-AR2, V-AR3, V-AR5, V-AR6: value, N, V, Z, C. -/
theorem test_addBinary : List.all
    [(0x50#8, 0x50#8, false, ⟨0xA0#8, true, true, false, false⟩),
     (0xFF#8, 0x01#8, false, ⟨0x00#8, false, false, true, true⟩),
     (0x7F#8, 0x00#8, true, ⟨0x80#8, true, true, false, false⟩),
     (0xFF#8, 0xFF#8, true, ⟨0xFF#8, true, false, false, true⟩),
     (0xD0#8, 0x10#8, false, ⟨0xE0#8, true, false, false, false⟩)]
    (fun r => decide (addBinary r.1 r.2.1 r.2.2.1 = (r.2.2.2 : AluResult))) = true := by decide

/-- V-AR7, V-AR8, V-AR9, V-AR11, V-AR12, V-AR13: value, N, V, Z, C. -/
theorem test_subBinary : List.all
    [(0x50#8, 0xF0#8, true, ⟨0x60#8, false, false, false, false⟩),
     (0x50#8, 0xB0#8, true, ⟨0xA0#8, true, true, false, false⟩),
     (0x00#8, 0x01#8, true, ⟨0xFF#8, true, false, false, false⟩),
     (0x05#8, 0x03#8, false, ⟨0x01#8, false, false, false, true⟩),
     (0x05#8, 0x05#8, true, ⟨0x00#8, false, false, true, true⟩),
     (0x00#8, 0x00#8, false, ⟨0xFF#8, true, false, false, false⟩)]
    (fun r => decide (subBinary r.1 r.2.1 r.2.2.1 = (r.2.2.2 : AluResult))) = true := by decide

/-- V-AR14, V-AR16, V-AR17: value, N, V, Z, C. -/
theorem test_adcDecimal : List.all
    [(0x19#8, 0x28#8, false, ⟨0x47#8, false, false, false, false⟩),
     (0x99#8, 0x01#8, false, ⟨0x00#8, true, false, false, true⟩),
     (0x0F#8, 0x00#8, false, ⟨0x15#8, false, false, false, false⟩)]
    (fun r => decide (adcDecimal r.1 r.2.1 r.2.2.1 = (r.2.2.2 : AluResult))) = true := by decide

/-- V-AR18, V-AR19, V-AR20: value, N, V, Z, C. -/
theorem test_sbcDecimal : List.all
    [(0x46#8, 0x12#8, true, ⟨0x34#8, false, false, false, true⟩),
     (0x40#8, 0x13#8, true, ⟨0x27#8, false, false, false, true⟩),
     (0x32#8, 0x02#8, false, ⟨0x29#8, false, false, false, true⟩)]
    (fun r => decide (sbcDecimal r.1 r.2.1 r.2.2.1 = (r.2.2.2 : AluResult))) = true := by decide

/-- V-IL1: an unassigned opcode is a fault at its address (R66). -/
theorem test_V_IL1 :
    (match step (start 0x0600 0 0 0 0xFF 0 [(0x0600, 0x02)]) with
      | .fault f => decide (f = .illegalOpcode 0x02#8 0x0600#16)
      | _ => false) = true := by decide

/-- P5 under `DecimalPolicy = refuse`: the ADC is refused (R131). -/
theorem test_decimal_refused :
    (match step
        { start 0x0604 0x99 0 0 0xFF 0x08 [(0x0604, 0x69), (0x0605, 0x01)] with
          cfg := { Config.defaultParams with decimalPolicy := .refuse } } with
      | .refused r => decide (r = .decimal)
      | _ => false) = true := by decide

/-- IRQB low, NMIB quiet. -/
def irqLow : LineInputs :=
  { resb := .high, irqbLow := true, nmibLevels := [] }

/-- V-EX1: IRQ entry, B = 0 in the stacked P. -/
theorem test_V_EX1 :
    gives { start 0x1234 0 0 0 0xFF 0x81 [(0xFFFE, 0x00), (0xFFFF, 0x09)] with schedule := [irqLow] }
      0x0900 0 0 0 0xFC 0x85 [(0x01FF, 0x12), (0x01FE, 0x34), (0x01FD, 0xA1)] = true := by decide

/-- V-EX2: with I = 1 the instruction at pc (an INX here) runs. -/
theorem test_V_EX2 :
    gives { start 0x1234 0 0 0 0xFF 0x85 [(0x1234, 0xE8)] with schedule := [irqLow] }
      0x1235 0 1 0 0xFF 0x05 [] = true := by decide

/-- V-EX3: NMI entry, I does not mask it, S wraps; the edge falls since the last boundary. -/
theorem test_V_EX3 :
    gives
      { start 0x1234 0 0 0 0x01 0x06 [(0xFFFA, 0x00), (0xFFFB, 0x08)] with
        schedule := [{ resb := .high, irqbLow := false, nmibLevels := [false, true] }] }
      0x0800 0 0 0 0xFE 0x06 [(0x0101, 0x12), (0x0100, 0x34), (0x01FF, 0x26)] = true := by decide

/-- V-EX4: NMI wins over IRQ; D stays 1. -/
theorem test_V_EX4 :
    gives
      { start 0x1234 0 0 0 0xFF 0x48
          [(0xFFFA, 0x00), (0xFFFB, 0x08), (0xFFFE, 0x00), (0xFFFF, 0x09)] with
        nmiPending := true, schedule := [irqLow] }
      0x0800 0 0 0 0xFC 0x4C [(0x01FF, 0x12), (0x01FE, 0x34), (0x01FD, 0x68)] = true := by decide

/-- The state of V-EX5, RESB asserted at the boundary. -/
def resetting : State :=
  { start 0x1234 0 0 0 0xFF 0 [(0xFFFC, 0x00), (0xFFFD, 0x06)] with
    nmiPending := true
    schedule := [{ resb := .low, irqbLow := true, nmibLevels := [true] }] }

/-- V-EX5: what a reset step specifies; the register values it leaves open are free values. -/
theorem test_V_EX5 :
    ∃ t, step resetting = .next t ∧ t.pc = 0x0600#16 ∧ t.p.i = true ∧ t.nmiPending = false ∧
      t.iPoll = true ∧ t.mem = resetting.mem :=
  ⟨_, rfl, rfl, rfl, rfl, rfl, rfl⟩

/-- RESB asserted inside the instruction at 0600, with IRQB as given. -/
def cutAt0600 (op p : Nat) (irqbLow : Bool) : State :=
  { start 0x0600 0x55 0 0 0xFF p [(0x0600, op), (0x0601, 0x10), (0xFFFC, 0x00), (0xFFFD, 0x07)] with
    schedule := [{ resb := .fallsInside, irqbLow := irqbLow, nmibLevels := [] }] }

/-- R205: a reset inside a TXA, which writes no memory, leaves every byte and resets; inside a STA the
step completes as well. -/
theorem test_reset_inside :
    (match step (cutAt0600 0x8A 0x00 false) with
      | .next t => decide (t.mem = (cutAt0600 0x8A 0x00 false).mem) && decide (t.pc = 0x0700#16) &&
          t.p.i && t.iPoll && decide (t.schedule = [])
      | _ => false) = true ∧
    storeAddrs (.staZp 0x10#8) (cutAt0600 0x85 0x00 false) = [0x0010#16] ∧
    storeAddrs .txa (cutAt0600 0x8A 0x00 false) = [] ∧
    ∃ t, step (cutAt0600 0x85 0x00 false) = .next t :=
  ⟨by decide, rfl, rfl, _, rfl⟩

/-- V-EX8: the state before the CLI at 0603 with IRQB low, under one reading of the latency. -/
def beforeCli (l : Config.IFlagLatency) : State :=
  { start 0x0603 0 0 0 0xFF 0x04 [(0x0603, 0x58), (0x0604, 0xE8)] with
    cfg := { Config.defaultParams with iFlagLatency := l }
    schedule := [irqLow, irqLow, irqLow] }

/-- What the poll accepts at the boundary after one step. -/
def polledAfter (s : State) : Option Event :=
  match step s with
  | .next t => (interruptPoll t.lines.irqbLow (sampleLines t)).1
  | .fault _ => none
  | .refused _ => none

/-- V-EX8: with one_instruction the IRQ is not taken right after CLI, with none it is. -/
theorem test_V_EX8 :
    polledAfter (beforeCli .oneInstruction) = none ∧
    polledAfter (beforeCli .none) = some .irq := by decide

/-- R48: one address of each kind that is not ram. -/
def withKinds : State :=
  { start 0x0600 0xAB 0 0 0xFF 0 [] with
    cfg := { Config.defaultParams with
             regions := [{ base := 0xD000, size := 1, kind := .device },
                         { base := 0xE000, size := 0x1000, kind := .unmapped },
                         { base := 0xF000, size := 0x1000, kind := .rom }] } }

/-- R48: a write to a device is recorded and reaches it: what the next read of the device answers
comes from the state that the write has left it in. -/
theorem test_device_write_is_seen :
    (memRead 0xD000#16 (memWrite 0xD000#16 0x01#8 withKinds)).1 =
      Config.deviceByte (Config.deviceAfterWrite 0 0 0xD000 0x01#8) 0 0xD000 ∧
    (memWrite 0xD000#16 0x01#8 withKinds).events = [(0xD000, 0x01#8)] := ⟨rfl, rfl⟩

/-- R48: a write to rom changes nothing and is recorded; a write to ram is not recorded. -/
def withRom : State :=
  { start 0x0600 0xAB 0 0 0xFF 0 [(0x0600, 0x8D), (0x0601, 0x00), (0x0602, 0xF0)] with
    cfg := { Config.defaultParams with
             regions := [{ base := 0xF000, size := 0x1000, kind := .rom }] } }

theorem test_rom_write :
    (match step withRom with
      | .next t => decide (t.mem = withRom.mem) && decide (t.events = [(0xF000, 0xAB#8)])
      | _ => false) = true := by decide

/-- U9: a JSR at 01FE with S = FF pushes over its own bytes; the model marks it. -/
theorem test_jsr_overlap :
    (match step (start 0x01FE 0 0 0 0xFF 0 [(0x01FE, 0x20), (0x01FF, 0x34), (0x0200, 0x12)]) with
      | .next t => t.jsrOverlap
      | _ => false) = true := by decide

/-- An instruction placed by `withFetchWord` across the top of memory is fetched and run. -/
theorem test_withFetchWord :
    gives ((start 0xFFFE 0 0 0 0xFF 0 [(0x1200, 0x80)]).withFetchWord 24 0x1200AD)
      0x0001 0x80 0 0 0xFF 0x80 [] = true := by decide

/-! ## Witnesses: a state and operands that meet the hypotheses of each statement -/

/-- The default platform has its stack in ram. -/
theorem start_pageOneRam (pc a x y sp p : Nat) (cells : List (Nat × Nat)) :
    (start pc a x y sp p cells).PageOneRam := fun _ => rfl

theorem witness_LoadsPutTheOperandInOneRegister :
    (Instr.ldaIndY 0xFF#8).mnemonic = .LDA ∧ (Instr.ldxAbsY 0xFFFF#16).mnemonic = .LDX ∧
    (Instr.ldyImm 0x00#8).mnemonic = .LDY := by decide

theorem witness_StoresWriteOneByteAtTheEffectiveAddress :
    (Instr.staIndX 0xFF#8).mnemonic = .STA ∧ (Instr.stxZpY 0xFF#8).mnemonic = .STX ∧
    (Instr.styAbs 0xFFFF#16).mnemonic = .STY := by decide

theorem witness_PullsReadAboveTheStackPointer :
    ∃ v : Byte, v = (start 0 0 0 0 0xFF 0 [(0x0100, 0x80)]).peek (stackAddr (0xFF#8 + 1#8)) ∧
      v = 0x80#8 := ⟨_, rfl, rfl⟩

theorem witness_PullUndoesPush_pha :
    ∃ s t u : State, s.PageOneRam ∧ exec .pha s = .next t ∧
      exec .pla { t with a := 0x00#8 } = .next u :=
  ⟨_, _, _, start_pageOneRam 0 0x42 0 0 0x00 0 [], rfl, rfl⟩

theorem witness_PullUndoesPush_php :
    ∃ s t u : State, s.PageOneRam ∧ exec .php s = .next t ∧
      exec .plp { t with p := unpackP 0x00#8 } = .next u :=
  ⟨_, _, _, start_pageOneRam 0 0 0 0 0x00 0xCF [], rfl, rfl⟩

theorem witness_LogicalInstructionsCombineAWithTheOperand :
    (Instr.andImm 0xFF#8).mnemonic = .AND ∧ (Instr.eorIndY 0xFF#8).mnemonic = .EOR ∧
    (Instr.oraAbsX 0xFFFF#16).mnemonic = .ORA := by decide

theorem witness_BitTestsWithoutChangingA :
    (Instr.bitZp 0xFF#8).mnemonic = .BIT ∧ (Instr.bitAbs 0xFFFF#16).mnemonic = .BIT := by decide

/-- The decimal mode off, on, and on under the policy that refuses. -/
theorem witness_AdcAddsWithCarry :
    (Instr.adcImm 0xFF#8).mnemonic = .ADC ∧ (start 0 0 0 0 0 0x01 []).p.d = false ∧
    (start 0 0 0 0 0 0x09 []).p.d = true ∧
    (start 0 0 0 0 0 0x09 []).cfg.decimalPolicy = .nmosAlgorithm ∧
    { Config.defaultParams with decimalPolicy := .refuse }.decimalPolicy = .refuse := by decide

theorem witness_SbcSubtractsWithBorrow :
    (Instr.sbcIndX 0xFF#8).mnemonic = .SBC ∧ (start 0 0 0 0 0 0x01 []).p.d = false ∧
    (start 0 0 0 0 0 0x09 []).p.d = true ∧
    (start 0 0 0 0 0 0x09 []).cfg.decimalPolicy = .nmosAlgorithm ∧
    { Config.defaultParams with decimalPolicy := .refuse }.decimalPolicy = .refuse := by decide

/-- 99 and 00 are valid decimal operands; the other clauses have no hypotheses. -/
theorem witness_AdcDecimalAddsValidDigits :
    (0x99#8).toNat % 16 ≤ 9 ∧ (0x99#8).toNat / 16 ≤ 9 ∧ (0x00#8).toNat % 16 ≤ 9 ∧
    (0x00#8).toNat / 16 ≤ 9 := by decide

theorem witness_SbcDecimalSubtractsValidDigits :
    (0x00#8).toNat % 16 ≤ 9 ∧ (0x00#8).toNat / 16 ≤ 9 ∧ (0x99#8).toNat % 16 ≤ 9 ∧
    (0x99#8).toNat / 16 ≤ 9 := by decide

theorem witness_ComparesKeepOnlyFlags :
    (Instr.cmpIndX 0xFF#8).mnemonic = .CMP ∧ (Instr.cpxImm 0xFF#8).mnemonic = .CPX ∧
    (Instr.cpyAbs 0xFFFF#16).mnemonic = .CPY := by decide

theorem witness_IncAndDecReplaceAMemoryByte :
    (Instr.decAbsX 0xFFFF#16).mnemonic = .DEC ∧ (Instr.incZp 0xFF#8).mnemonic = .INC := by decide

theorem witness_ShiftsAndRotatesMoveOneBit :
    Instr.aslAcc.mnemonic = .ASL ∧ (Instr.rolZpX 0xFF#8).mnemonic = .ROL ∧
    (Instr.rorAbs 0xFFFF#16).mnemonic = .ROR ∧ Instr.lsrAcc.mnemonic = .LSR ∧
    ∃ t, exec .lsrAcc (start 0 0xFF 0 0 0 0x81 []) = .next t :=
  ⟨rfl, rfl, rfl, rfl, _, rfl⟩

/-- Pulls that wrap from 01FF to 0100. -/
theorem witness_RtsReturnsPastThePulledAddress :
    (start 0 0 0 0 0xFE 0 []).Plain (stackAddr (0xFE#8 + 1#8)) ∧
    (start 0 0 0 0 0xFE 0 []).Plain (stackAddr (0xFE#8 + 2#8)) := ⟨.inl rfl, .inl rfl⟩

theorem witness_RtsUndoesJsr :
    ∃ s t u : State, s.PageOneRam ∧ exec (.jsr 0xFFFF#16) s = .next t ∧
      exec .rts { t with pc := 0x0000#16 } = .next u :=
  ⟨_, _, _, start_pageOneRam 0x0000 0 0 0 0x00 0 [], rfl, rfl⟩

theorem witness_RtiRestoresPAndPc :
    ∃ s : State, s.sp = 0xFE#8 ∧ ∃ v : Byte, v = s.byteAt (stackAddr (s.sp + 1#8)) ∧
      ∀ k ∈ [1#8, 2#8, 3#8], s.Plain (stackAddr (s.sp + k)) :=
  ⟨start 0 0 0 0 0xFE 0 [], rfl, _, rfl, fun _ _ => .inl rfl⟩

theorem witness_RtiUndoesBrk :
    ∃ s t u : State, s.PageOneRam ∧ exec .brk s = .next t ∧
      exec .rti { t with pc := 0x0000#16, p := unpackP 0x00#8 } = .next u :=
  ⟨_, _, _, start_pageOneRam 0xFFFF 0 0 0 0x01 0xCF [], rfl, rfl⟩

theorem witness_AcceptedInterruptsEnterTheirHandler_nmi :
    ∃ s s0 : State, s.lines.resb = .high ∧
      interruptPoll s.lines.irqbLow (sampleLines s) = (some .nmi, s0) :=
  ⟨{ start 0x1234 0 0 0 0x01 0x06 [] with nmiPending := true, schedule := [irqLow] }, _, rfl, rfl⟩

theorem witness_AcceptedInterruptsEnterTheirHandler_irq :
    ∃ s s0 : State, s.lines.resb = .high ∧
      interruptPoll s.lines.irqbLow (sampleLines s) = (some .irq, s0) :=
  ⟨{ start 0x1234 0 0 0 0x01 0x00 [] with schedule := [irqLow] }, _, rfl, rfl⟩

theorem witness_HandlerFindsTheStackedState :
    ∃ s t u v : State, s.PageOneRam ∧ exec .brk s = .next t ∧ u = interruptEntry .nmi s ∧
      v = enterHandler 0xFFFF#16 true 0xFFFE#16 s :=
  ⟨_, _, _, _, start_pageOneRam 0 0 0 0 0x01 0xCF [], rfl, rfl, rfl⟩

/-- The frames over the stack bytes speak of some address, and the vectors can be plain. -/
theorem witness_stack_frames :
    (∀ k ∈ [0#8, 1#8, 2#8], (0x0200#16 : Addr) ≠ stackAddr (0x01#8 - k)) ∧
    (start 0 0 0 0 0x01 0 []).Plain 0xFFFE#16 ∧ (start 0 0 0 0 0x01 0 []).Plain 0xFFFF#16 ∧
    (start 0 0 0 0 0x01 0 []).Plain 0xFFFA#16 ∧ (start 0 0 0 0 0x01 0 []).Plain 0xFFFB#16 := by
  decide

theorem witness_RtiUndoesInterruptEntry (e : Event) :
    ∃ s t u : State, s.PageOneRam ∧ t = interruptEntry e s ∧
      exec .rti { t with pc := 0x0000#16, p := unpackP 0x00#8 } = .next u :=
  ⟨_, _, _, start_pageOneRam 0xFFFF 0 0 0 0x01 0xCF [], rfl, rfl⟩

/-- The states of the five clauses: an NMI waits; none waits; none waits, under each latency, the last
with `i_poll` and I both clear and with the poll accepting. -/
theorem witness_PollOrdersNmiBeforeIrqAndMasksIrq :
    { start 0 0 0 0 0 0x04 [] with nmiPending := true }.nmiPending = true ∧
    (start 0 0 0 0 0 0x04 []).nmiPending = false ∧
    (beforeCli .none).nmiPending = false ∧ (beforeCli .none).cfg.iFlagLatency = .none ∧
    (beforeCli .oneInstruction).nmiPending = false ∧
    (beforeCli .oneInstruction).cfg.iFlagLatency = .oneInstruction ∧
    (start 0 0 0 0 0 0x00 []).nmiPending = false ∧
    (start 0 0 0 0 0 0x00 []).cfg.iFlagLatency = .bothAdmitted ∧
    (start 0 0 0 0 0 0x00 []).iPoll = false ∧ (start 0 0 0 0 0 0x00 []).p.i = false ∧
    (interruptPoll true (start 0 0 0 0 0 0x00 [])).1 = some .irq := by decide

/-- RESB asserted while an NMI and an IRQ wait; and an NMI accepted. -/
theorem witness_PollOrdersNmiBeforeIrqAndMasksIrq_events :
    resetting.lines.resb = .low ∧ ∃ s s0 : State, s.lines.resb = .high ∧
      interruptPoll s.lines.irqbLow (sampleLines s) = (some .nmi, s0) :=
  ⟨rfl, { start 0x1234 0 0 0 0x01 0x06 [] with nmiPending := true, schedule := [irqLow] }, _, rfl,
    rfl⟩

theorem witness_NmiIsLatchedOnFallingEdges :
    ∃ s t : State, s.nmiPending = true ∧ exec .nop s = .next t :=
  ⟨{ start 0 0 0 0 0 0 [] with nmiPending := true }, _, rfl, rfl⟩

/-- The state before an instruction at 0603 with IRQB high, under the chip's latency. -/
def latencyState (op p : Nat) : State :=
  { start 0x0603 0 0 0 0xFF p [(0x0603, op)] with
    cfg := { Config.defaultParams with iFlagLatency := .oneInstruction } }

/-- The first clause on PLP, whose pulled byte has I = 1. -/
theorem witness_IPollLagsOneInstruction_any :
    ∃ s s0 s1 t : State, s.lines.resb = .high ∧
      interruptPoll s.lines.irqbLow (sampleLines s) = (none, s0) ∧ fetch s0 = .ok (.plp, s1) ∧
      step s = .next t :=
  ⟨{ latencyState 0x28 0x00 with sp := 0xFF#8 }, _, _, _, rfl, rfl, rfl, rfl⟩

theorem witness_IPollLagsOneInstruction_cli :
    ∃ s s0 s1 t : State, s.lines.resb = .high ∧ s.nmiPending = false ∧
      interruptPoll s.lines.irqbLow (sampleLines s) = (none, s0) ∧ fetch s0 = .ok (.cli, s1) ∧
      step s = .next t ∧ t.cfg.iFlagLatency = .oneInstruction ∧ s.p.i = true :=
  ⟨latencyState 0x58 0x04, _, _, _, rfl, rfl, rfl, rfl, rfl, rfl, rfl⟩

theorem witness_IPollLagsOneInstruction_sei :
    ∃ s s0 s1 t : State, s.lines.resb = .high ∧ s.nmiPending = false ∧
      interruptPoll s.lines.irqbLow (sampleLines s) = (none, s0) ∧ fetch s0 = .ok (.sei, s1) ∧
      step s = .next t ∧ t.cfg.iFlagLatency = .oneInstruction ∧ s.p.i = false :=
  ⟨latencyState 0x78 0x00, _, _, _, rfl, rfl, rfl, rfl, rfl, rfl, rfl⟩

theorem witness_IPollLagsOneInstruction_reset :
    resetting.lines.resb ≠ .high ∧ ∃ t, step resetting = .next t := ⟨by decide, _, rfl⟩

theorem witness_IPollLagsOneInstruction_entry :
    ∃ s s0 t : State, s.lines.resb = .high ∧
      interruptPoll s.lines.irqbLow (sampleLines s) = (some .irq, s0) ∧ step s = .next t :=
  ⟨{ start 0x1234 0 0 0 0x01 0x00 [] with schedule := [irqLow] }, _, _, rfl, rfl, rfl⟩

theorem witness_IPollLagsOneInstruction_masks :
    (beforeCli .oneInstruction).cfg.iFlagLatency = .oneInstruction ∧
    (beforeCli .none).cfg.iFlagLatency = .none ∧
    (start 0 0 0 0 0 0x00 []).cfg.iFlagLatency = .bothAdmitted ∧
    (start 0 0 0 0 0 0x00 []).iPoll = false ∧ (start 0 0 0 0 0 0x00 []).p.i = false ∧
    (irqUnmasked (start 0 0 0 0 0 0x00 [])).1 = true := by decide

/-- A pointer at FF, its second byte at 00. -/
theorem witness_EffectiveAddressesThroughZeroPagePointers :
    (0x00FF#16).toNat = ((0xF0#8).toNat + (0x0F#8).toNat) % 256 ∧
    (0x0000#16).toNat = ((0xF0#8).toNat + (0x0F#8).toNat + 1) % 256 ∧
    (0x00FF#16).toNat = (0xFF#8).toNat ∧ (0x0000#16).toNat = ((0xFF#8).toNat + 1) % 256 ∧
    (start 0 0 0x0F 0 0 0 []).x = 0x0F#8 ∧
    (start 0 0 0x0F 0 0 0 []).Plain 0x00FF#16 ∧ (start 0 0 0x0F 0 0 0 []).Plain 0x0000#16 := by
  decide

theorem witness_PointerModesReadInOrder :
    ∃ (s s1 s2 : State) (p q ea : Addr), p = zeroExtend16 (0xFF#8 + s.x) ∧
      q = zeroExtend16 (0xFF#8 + s.x + 1#8) ∧ s1 = s.touch p ∧ s2 = s1.touch q ∧
      ea = joinBytes (s1.peek q) (s.peek p) :=
  ⟨start 0 0 0 0 0 0 [], _, _, _, _, _, rfl, rfl, rfl, rfl, rfl⟩

theorem witness_PointerModesReadInOrder_indY :
    ∃ (s s1 s2 : State) (p q ea : Addr), p = zeroExtend16 0xFF#8 ∧
      q = zeroExtend16 (0xFF#8 + 1#8) ∧ s1 = s.touch p ∧ s2 = s1.touch q ∧
      ea = joinBytes (s1.peek q) (s.peek p) + zeroExtend16 s.y :=
  ⟨start 0 0 0 0xFF 0 0 [], _, _, _, _, _, rfl, rfl, rfl, rfl, rfl⟩

theorem witness_PointerModesReadInOrder_jmpInd :
    ∃ (s s1 s2 : State) (q : Addr), q = joinBytes (highByte 0x02FF#16) (lowByte 0x02FF#16 + 1#8) ∧
      s1 = s.touch 0x02FF#16 ∧ s2 = s1.touch q :=
  ⟨start 0 0 0 0 0 0 [], _, _, _, rfl, rfl, rfl⟩

/-- An LDA of three bytes at FFFE whose last byte, at 0000, is the byte written. -/
def writtenAcross : State :=
  start 0xFFFE 0 0 0 0xFF 0 [(0xFFFE, 0xAD), (0xFFFF, 0x34), (0x0000, 0x99)]

theorem witness_StoresAreSeenByTheNextFetch :
    writtenAcross.kindAt 0x0000#16 = .ram ∧
    (∀ k < 3, writtenAcross.Plain (0xFFFE#16 + BitVec.ofNat 16 k)) ∧
    (Instr.ldaAbs 0x1234#16).length = 3 ∧
    decode ((List.range 3).map fun k =>
      if 0xFFFE#16 + BitVec.ofNat 16 k = 0x0000#16 then 0x12#8
      else writtenAcross.byteAt (0xFFFE#16 + BitVec.ofNat 16 k)) = .ok (.ldaAbs 0x1234#16, []) :=
  ⟨rfl, fun _ _ => .inl rfl, rfl, rfl⟩

theorem witness_StoresAreSeenByTheNextFetch_after :
    ∃ t : State, t.pc = 0xFFFE#16 ∧ t.cfg = writtenAcross.cfg ∧
      WroteByte writtenAcross t 0x0000#16 0x12#8 :=
  ⟨memWrite 0x0000#16 0x12#8 writtenAcross, rfl, rfl, memWrite_wroteByte _ _ _⟩

theorem witness_ResetStepTakesTheVectorAndWritesNothing :
    resetting.lines.resb = .low ∧ resetting.Plain 0xFFFC#16 ∧ resetting.Plain 0xFFFD#16 :=
  ⟨rfl, .inl rfl, .inl rfl⟩

/-- An LDA of three bytes at FFFE, its last byte at 0000. -/
def acrossTheTop : State :=
  start 0xFFFE 0 0 0 0xFF 0 [(0xFFFE, 0xAD), (0xFFFF, 0x34), (0x0000, 0x12)]

theorem witness_StepRunsTheDecodedInstruction :
    ∃ s0 : State, acrossTheTop.lines.resb = .high ∧
      interruptPoll acrossTheTop.lines.irqbLow (sampleLines acrossTheTop) = (none, s0) ∧
      (∀ k < 3, acrossTheTop.Plain (acrossTheTop.pc + BitVec.ofNat 16 k)) ∧
      decode ((List.range 3).map fun k =>
        acrossTheTop.byteAt (acrossTheTop.pc + BitVec.ofNat 16 k)) = .ok (.ldaAbs 0x1234#16, []) ∧
      (Instr.ldaAbs 0x1234#16).length = 3 ∧ (Instr.ldaAbs 0x1234#16).wellFormed = true :=
  ⟨_, rfl, rfl, fun _ _ => .inl rfl, rfl, rfl, rfl⟩

theorem witness_UnassignedOpcodesFault :
    ∃ s s0 : State, s.lines.resb = .high ∧
      interruptPoll s.lines.irqbLow (sampleLines s) = (none, s0) ∧
      opcodeLength (s0.peek s.pc) = none :=
  ⟨start 0xFFFF 0 0 0 0xFF 0 [(0xFFFF, 0xFF)], _, rfl, rfl, rfl⟩

theorem witness_StepsStopOnlyWhereTheSpecSays_fault :
    ∃ f, step (start 0xFFFF 0 0 0 0xFF 0 [(0xFFFF, 0xFF)]) = .fault f := ⟨_, rfl⟩

theorem witness_StepsStopOnlyWhereTheSpecSays_refusal :
    ∃ r, step
      { start 0x0604 0x99 0 0 0xFF 0x08 [(0x0604, 0xE9), (0x0605, 0x01)] with
        cfg := { Config.defaultParams with decimalPolicy := .refuse } } = .refused r := ⟨_, rfl⟩

theorem witness_OnlyListedInstructionsWriteARegister :
    ∃ t, exec .sec (start 0 1 2 3 4 0 []) = .next t ∧
      Instr.sec.mnemonic ∉ [.ADC, .AND, .EOR, .LDA, .ORA, .PLA, .SBC, .TXA, .TYA] ∧
      Instr.sec.operand ≠ .accumulator ∧ Instr.sec.mnemonic ∉ [.DEX, .INX, .LDX, .TAX, .TSX] ∧
      Instr.sec.mnemonic ∉ [.DEY, .INY, .LDY, .TAY] ∧
      Instr.sec.mnemonic ∉ [.PHA, .PHP, .PLA, .PLP, .JSR, .RTS, .RTI, .BRK, .TXS] ∧
      Instr.sec.mnemonic ∉
        [.BCC, .BCS, .BEQ, .BMI, .BNE, .BPL, .BVC, .BVS, .JMP, .JSR, .RTS, .RTI, .BRK] :=
  ⟨_, rfl, by decide, by decide, by decide, by decide, by decide, by decide⟩

/-- A store is in none of the five lists; BIT of a byte with bit 6 set sets V. -/
theorem witness_OnlyListedInstructionsWriteAFlag :
    (∃ t, exec (.staZp 0x10#8) (start 0 0 0 0 0 0xCF []) = .next t) ∧
    ∃ t, exec (.bitZp 0x10#8) (start 0 0 0 0 0 0 [(0x0010, 0x40)]) = .next t ∧ t.p.v = true ∧
      (start 0 0 0 0 0 0 [(0x0010, 0x40)]).p.v = false :=
  ⟨⟨_, rfl⟩, _, rfl, rfl, rfl⟩

theorem witness_OnlyStoringInstructionsWriteMemory :
    ∃ t, exec .aslAcc (start 0 0x80 0 0 0 0 []) = .next t ∧ Instr.aslAcc.operand = .accumulator :=
  ⟨_, rfl, rfl⟩

theorem witness_StepKeepsReadOnlyMemory :
    ∃ t, step withRom = .next t ∧ withRom.kindAt 0xF000#16 ≠ .ram ∧
      withRom.kindAt 0xFFFF#16 ≠ .ram := ⟨_, rfl, by decide, by decide⟩

theorem witness_StepKeepsWellFormedness : withRom.wf = true ∧ ∃ t, step withRom = .next t :=
  ⟨by decide, _, rfl⟩

theorem witness_EncodeInvertsDecode :
    decode [0x6C#8, 0xFF#8, 0x02#8, 0xEA#8] = .ok (.jmpInd 0x02FF#16, [0xEA#8]) := rfl

/-- A JMP to itself whose bytes wrap from FFFF to 0000. -/
theorem witness_JumpToItselfStopsARun :
    ∃ s : State, s.pc = 0xFFFE#16 ∧ s.schedule = [] ∧ s.nmiPending = false ∧
      (∀ k ∈ [0#16, 1#16, 2#16], s.Plain (s.pc + k)) ∧ s.byteAt s.pc = 0x4C#8 ∧
      s.byteAt (s.pc + 1#16) = lowByte s.pc ∧ s.byteAt (s.pc + 2#16) = highByte s.pc :=
  ⟨start 0xFFFE 0 0 0 0 0 [(0xFFFE, 0x4C), (0xFFFF, 0xFE), (0x0000, 0xFF)], rfl, rfl, rfl,
    fun _ _ => .inl rfl, rfl, rfl, rfl⟩

/-- A run of two NOPs that ends at its stop address, and one that ends in a fault. -/
theorem witness_RunsEndAtTheFirstStop :
    (∃ t, runUntil (atStop 0x0602#16) 5
      (start 0x0600 0 0 0 0 0 [(0x0600, 0xEA), (0x0601, 0xEA)]) = .stopped t) ∧
    ∃ f, runUntil (atStop 0x0600#16) 5
      (start 0x0601 0 0 0 0 0 [(0x0601, 0xEA), (0x0602, 0xFF)]) = .fault f :=
  ⟨⟨_, rfl⟩, _, rfl⟩

/-- Any condition is a stop condition: here, that X is not zero. -/
theorem test_stop_condition :
    (match runUntil (fun s => decide (s.x ≠ 0x00#8)) 5
        (start 0x0600 0 0 0 0 0 [(0x0600, 0xEA), (0x0601, 0xE8), (0x0602, 0xEA)]) with
      | .stopped t => decide (t.pc = 0x0602#16)
      | _ => false) = true := by decide

/-- RESB asserted inside a STA, and inside the entry of an IRQ. -/
theorem witness_ResetInsideAStepOpensOnlyItsWrites :
    (∃ s s0 s1 : State, s.lines.resb = .fallsInside ∧
      interruptPoll s.lines.irqbLow (sampleLines s) = (none, s0) ∧
      fetch s0 = .ok (.staZp 0x10#8, s1) ∧ storeAddrs (.staZp 0x10#8) s1 = [0x0010#16] ∧
      s.Plain 0xFFFC#16 ∧ s.Plain 0xFFFD#16) ∧
    ∃ s s0 : State, s.lines.resb = .fallsInside ∧
      interruptPoll s.lines.irqbLow (sampleLines s) = (some .irq, s0) ∧
      entryAddrs s0 = [0x01FF#16, 0x01FE#16, 0x01FD#16] :=
  ⟨⟨cutAt0600 0x85 0x04 true, _, _, rfl, rfl, rfl, rfl, .inl rfl, .inl rfl⟩,
    cutAt0600 0x85 0x00 true, _, rfl, rfl, rfl⟩

/-- A JSR whose pushes wrap from 0100 to 01FF, and an NMI entry. -/
theorem witness_InstructionsWriteOnlyAtTheirStoreAddresses :
    ∃ s t u : State, exec (.jsr 0x1234#16) s = .next t ∧
      storeAddrs (.jsr 0x1234#16) s = [0x0100#16, 0x01FF#16] ∧
      (0x01FE#16 : Addr) ∉ storeAddrs (.jsr 0x1234#16) s ∧ u = interruptEntry .nmi s ∧
      (0x01FD#16 : Addr) ∉ entryAddrs s :=
  ⟨start 0 0 0 0 0x00 0 [], _, _, rfl, rfl, by decide, rfl, by decide⟩

theorem witness_AccessesFollowTheKindOfAddress :
    withKinds.kindAt 0xCFFF#16 = .ram ∧ withKinds.kindAt 0xF000#16 = .rom ∧
    withKinds.kindAt 0xD000#16 = .device ∧ withKinds.kindAt 0xE000#16 = .unmapped := by decide

theorem witness_FetchWindowRunsThePlacedInstruction :
    decodeTableWord 24 0x44007E = some (.rorAbsX 0x4400#16) := rfl

end Sys2Proof.Tests
end

section
/-! PROOFS. The family 00_scope.md: the status register as a byte (O39), and pulling what was pushed (O6). -/

namespace Sys2Proof.Machine

/-! ## The status register as a byte (R9) -/

theorem bit_eq_toNat (b : Bool) : bit b = b.toNat := by
  cases b <;> rfl

/-- The sum of weights that defines `packP` is the binary number of its bits, C lowest (R26). -/
theorem packP_eq_ofBoolListLE (b : Bool) (p : Flags) :
    packP b p = BitVec.ofBoolListLE [p.c, p.z, p.i, p.d, b, true, p.v, p.n] := by
  refine BitVec.eq_of_toNat_eq ?_
  simp only [packP, bit_eq_toNat, BitVec.ofBoolListLE, BitVec.toNat_ofNat, BitVec.toNat_concat,
    BitVec.toNat_of_zero_length List.length_nil, Bool.toNat_true]
  have hn := p.n.toNat_lt
  have hv := p.v.toNat_lt
  have hb := b.toNat_lt
  have hd := p.d.toNat_lt
  have hi := p.i.toNat_lt
  have hz := p.z.toNat_lt
  have hc := p.c.toNat_lt
  omega

/-- Which flag stands at which bit of the pushed byte (R26 to R34). -/
theorem packP_getLsbD (b : Bool) (p : Flags) (k : Nat) :
    (packP b p).getLsbD k = [p.c, p.z, p.i, p.d, b, true, p.v, p.n].getD k false := by
  rw [packP_eq_ofBoolListLE]
  exact BitVec.getLsbD_ofBoolListLE

/-- Unpacking discards bits 5 and 4 and gives back the six flags packed, whatever B was presented. -/
theorem unpackP_packP (b : Bool) (p : Flags) : unpackP (packP b p) = p := by
  simp only [unpackP, packP_getLsbD]
  rfl

/-- Packing loses nothing of a byte but bit 5, which it sets. -/
theorem packP_unpackP (v : Byte) : packP (v.getLsbD 4) (unpackP v) = v ||| 0x20#8 := by
  refine BitVec.eq_of_getLsbD_eq fun k hk => ?_
  rw [packP_getLsbD, BitVec.getLsbD_or]
  interval_cases k <;> simp [unpackP]

/-- Settles O39: each bit of the packed byte is known, and so is each flag of the unpacked one. -/
theorem packedStatusUnpacks : Obligations.PackedStatusUnpacks := by
  refine ⟨fun b p => ⟨unpackP_packP b p, ?bit5, ?bit4⟩, packP_unpackP⟩
  case bit5 => exact packP_getLsbD b p 5
  case bit4 => exact packP_getLsbD b p 4

/-! ## A pull after a push (R8, R117 to R120) -/

theorem exec_pha_eq_next_iff {s t : State} : exec .pha s = .next t ↔ t = push8 s.a s := by
  rw [exec_pha rfl, execPha, Host.Outcome.next.injEq, eq_comm]

theorem exec_php_eq_next_iff {s t : State} :
    exec .php s = .next t ↔ t = push8 (packP true s.p) s := by
  rw [exec_php rfl, execPhp, Host.Outcome.next.injEq, eq_comm]

theorem exec_pla_eq_next_iff {s t : State} :
    exec .pla s = .next t ↔ t = ((pull8 s).2.setA (pull8 s).1).setNZ (pull8 s).1 := by
  rw [exec_pla rfl, execPla, Host.Outcome.next.injEq, eq_comm]

theorem exec_plp_eq_next_iff {s t : State} :
    exec .plp s = .next t ↔ t = (pull8 s).2.setP (unpackP (pull8 s).1) := by
  rw [exec_plp rfl, execPlp, Host.Outcome.next.injEq, eq_comm]

/-- `pull8_push8` with other registers changed in between: a pull sees the stack pointer, the map and
memory alone. -/
theorem pull8_of_pushed {s t : State} {v : Byte} (h : s.PageOneRam)
    (hsp : t.sp = (push8 v s).sp) (hcfg : t.cfg = s.cfg) (hmem : t.mem = (push8 v s).mem) :
    pull8 t = (v, t.setSp s.sp) := by
  have hback : t.sp + 1#8 = s.sp := by simp [hsp]
  have hram : t.kindAt (stackAddr s.sp) = .ram := (State.kindAt_congr hcfg _).trans (h s.sp)
  have hbyte : t.byteAt (stackAddr s.sp) = v := by
    rw [State.byteAt, hmem]
    exact push8_byteAt_same s v (h s.sp)
  rw [pull8_plain t (by rw [hback]; exact .inl hram), hback, hbyte]

/-- PLA on a stack where `v` was pushed: A takes `v`, S goes back, memory stays. -/
theorem exec_pla_of_pushed {s t u : State} {v : Byte} (hpull : exec .pla t = .next u)
    (h : s.PageOneRam) (hsp : t.sp = (push8 v s).sp) (hcfg : t.cfg = s.cfg)
    (hmem : t.mem = (push8 v s).mem) : u.a = v ∧ u.sp = s.sp ∧ u.mem = (push8 v s).mem := by
  rw [exec_pla_eq_next_iff, pull8_of_pushed h hsp hcfg hmem] at hpull
  simp [hpull, hmem]

/-- PLP on a stack where `v` was pushed: P takes the flags of `v`, S goes back, memory stays. -/
theorem exec_plp_of_pushed {s t u : State} {v : Byte} (hpull : exec .plp t = .next u)
    (h : s.PageOneRam) (hsp : t.sp = (push8 v s).sp) (hcfg : t.cfg = s.cfg)
    (hmem : t.mem = (push8 v s).mem) : u.p = unpackP v ∧ u.sp = s.sp ∧ u.mem = (push8 v s).mem := by
  rw [exec_plp_eq_next_iff, pull8_of_pushed h hsp hcfg hmem] at hpull
  simp [hpull, hmem]

/-- Settles O6: the pull reads the pushed byte, since A and P are not on the stack, and the byte pushed
for P unpacks to P (O39). -/
theorem pullUndoesPush : Obligations.PullUndoesPush := by
  refine ⟨fun s t u v hram hpush hpull => ?pla, fun s t u p hram hpush hpull => ?plp⟩
  case pla =>
    obtain rfl := exec_pha_eq_next_iff.mp hpush
    exact exec_pla_of_pushed hpull hram rfl (push8_cfg s s.a) rfl
  case plp =>
    obtain rfl := exec_php_eq_next_iff.mp hpush
    have hpulled := exec_plp_of_pushed hpull hram rfl (push8_cfg s _) rfl
    rwa [unpackP_packP] at hpulled

end Sys2Proof.Machine
end

section
/-! PROOFS. What a completed instruction can write, and what kinds of step there are: one inversion lemma for `exec` and one for `step`, from which the frames and the invariant of a family follow. -/

namespace Sys2Proof.Machine

variable {i : Instr} {s t : State}

/-! ## Completed instructions -/

/-- What a completed instruction can write, by its mnemonic. Of the value written only its shape is
kept: `n` and `d` are the count of free values and the devices' state that the reads leave. -/
inductive ExecEffect (i : Instr) (s : State) : State → Prop
  | intoA (v : Byte) (n d : Nat) (hm : i.mnemonic ∈ [.AND, .EOR, .LDA, .ORA, .TXA, .TYA]) :
      ExecEffect i s { s with a := v, p := s.p.withNZ v, draws := n, device := d }
  | intoX (v : Byte) (n d : Nat) (hm : i.mnemonic ∈ [.DEX, .INX, .LDX, .TAX, .TSX]) :
      ExecEffect i s { s with x := v, p := s.p.withNZ v, draws := n, device := d }
  | intoY (v : Byte) (n d : Nat) (hm : i.mnemonic ∈ [.DEY, .INY, .LDY, .TAY]) :
      ExecEffect i s { s with y := v, p := s.p.withNZ v, draws := n, device := d }
  | intoSp (v : Byte) (hm : i.mnemonic = .TXS) : ExecEffect i s { s with sp := v }
  | alu (r : AluResult) (n d : Nat) (hm : i.mnemonic ∈ [.ADC, .SBC]) :
      ExecEffect i s { s with a := r.value, p := s.p.withAlu r, draws := n, device := d }
  | compared (reg v : Byte) (n d : Nat) (hm : i.mnemonic ∈ [.CMP, .CPX, .CPY]) :
      ExecEffect i s { s with p := s.p.withCompare reg v, draws := n, device := d }
  | tested (fz fn fv : Bool) (n d : Nat) (hm : i.mnemonic = .BIT) :
      ExecEffect i s { s with p := { s.p with z := fz, n := fn, v := fv }, draws := n, device := d }
  | stored (ea : Addr) (v : Byte) (n d : Nat) (hm : i.mnemonic ∈ [.STA, .STX, .STY]) :
      ExecEffect i s (memWrite ea v { s with draws := n, device := d })
  | counted (ea : Addr) (v : Byte) (n d : Nat) (hm : i.mnemonic ∈ [.DEC, .INC]) :
      ExecEffect i s ((memWrite ea v { s with draws := n, device := d }).setP (s.p.withNZ v))
  | shiftedA (r : ShiftResult) (ho : i.operand = .accumulator)
      (hm : i.mnemonic ∈ [.ASL, .ROL, .LSR, .ROR]) :
      ExecEffect i s { s with a := r.value, p := s.p.withShift r }
  | shifted (ea : Addr) (r : ShiftResult) (n d : Nat)
      (hm : i.mnemonic ∈ [.ASL, .ROL, .LSR, .ROR]) :
      ExecEffect i s
        ((memWrite ea r.value { s with draws := n, device := d }).setP (s.p.withShift r))
  | jumped (w : Addr) (n d : Nat)
      (hm : i.mnemonic ∈ [.BCC, .BCS, .BEQ, .BMI, .BNE, .BPL, .BVC, .BVS, .JMP]) :
      ExecEffect i s { s with pc := w, draws := n, device := d }
  | called (ret w : Addr) (overlap : Bool) (hm : i.mnemonic = .JSR) :
      ExecEffect i s ((push16 ret (s.markJsr overlap)).setPc w)
  | returned (w : Addr) (n d : Nat) (hm : i.mnemonic = .RTS) :
      ExecEffect i s { s with sp := s.sp + 2#8, pc := w, draws := n, device := d }
  | pushed (v : Byte) (hm : i.mnemonic ∈ [.PHA, .PHP]) : ExecEffect i s (push8 v s)
  | pulledA (v : Byte) (n d : Nat) (hm : i.mnemonic = .PLA) :
      ExecEffect i s
        { s with a := v, sp := s.sp + 1#8, p := s.p.withNZ v, draws := n, device := d }
  | pulledP (q : Flags) (n d : Nat) (hm : i.mnemonic = .PLP) :
      ExecEffect i s { s with sp := s.sp + 1#8, p := q, draws := n, device := d }
  | carry (b : Bool) (hm : i.mnemonic ∈ [.SEC, .CLC]) :
      ExecEffect i s { s with p := { s.p with c := b } }
  | decimal (b : Bool) (hm : i.mnemonic ∈ [.SED, .CLD]) :
      ExecEffect i s { s with p := { s.p with d := b } }
  | interrupt (b : Bool) (hm : i.mnemonic ∈ [.SEI, .CLI]) :
      ExecEffect i s { s with p := { s.p with i := b } }
  | overflowCleared (hm : i.mnemonic = .CLV) :
      ExecEffect i s { s with p := { s.p with v := false } }
  | entered (ret vector : Addr) (b : Bool) (hm : i.mnemonic = .BRK) :
      ExecEffect i s (enterHandler ret b vector s)
  | returnedP (q : Flags) (w : Addr) (n d : Nat) (hm : i.mnemonic = .RTI) :
      ExecEffect i s { s with sp := s.sp + 3#8, p := q, pc := w, draws := n, device := d }
  | nothing (hm : i.mnemonic = .NOP) : ExecEffect i s s

theorem pull8_snd_eq (s : State) :
    (pull8 s).2 =
      { s with sp := s.sp + 1#8, draws := (pull8 s).2.draws, device := (pull8 s).2.device } := by
  rw [State.mk.injEq]; simp

theorem pull16_snd_eq (s : State) :
    (pull16 s).2 =
      { s with sp := s.sp + 2#8, draws := (pull16 s).2.draws, device := (pull16 s).2.device } := by
  rw [State.mk.injEq]; simp

theorem returnFromHandler_eq (s : State) :
    returnFromHandler s =
      { s with
        sp := s.sp + 3#8, p := (returnFromHandler s).p, pc := (returnFromHandler s).pc
        draws := (returnFromHandler s).draws, device := (returnFromHandler s).device } := by
  rw [State.mk.injEq]; simp

theorem indirectTarget_snd_eq (w : Addr) (s : State) :
    (indirectTarget w s).2 =
      { s with
        draws := (indirectTarget w s).2.draws, device := (indirectTarget w s).2.device } := by
  rw [State.mk.injEq]; simp [indirectTarget]

/-- The read-modify-write of a memory operand is one write on the state its reads leave. -/
theorem modifyOperand_mem_snd_eq (m : MemMode) (f : Byte → Byte) (s : State) :
    (modifyOperand (.mem m) f s).2 =
      memWrite (effAddr m s).1 (f (readOperand (.mem m) s).1)
        { s with
          draws := (readOperand (.mem m) s).2.draws
          device := (readOperand (.mem m) s).2.device } := by
  rw [← readOperand_snd_eq]; rfl

/-- Only the accumulator is read and written back in a register (R82). -/
theorem eq_accumulator_of_rmw? {o : Operand} (h : o.rmw? = some .acc) :
    o = .accumulator := by
  cases o with
  | accumulator => rfl
  | implied | immediate | memory | target | indirect | relative => cases h

/-- ADC and SBC complete with some result in A, N, V, Z and C, in either mode. -/
theorem addSub_eq_next {binary decimal : Byte → Byte → Bool → AluResult} {o : Src}
    (h : addSub binary decimal o s = .next t) : ∃ r, t = (readOperand o s).2.applyAlu r := by
  unfold addSub at h
  simp only at h
  split at h
  · split at h
    · cases h; exact ⟨_, rfl⟩
    · cases h
  · cases h; exact ⟨_, rfl⟩

/-- Every completed instruction has the effect of its mnemonic. -/
theorem exec_effect (h : exec i s = .next t) : ExecEffect i s t := by
  have form := execForm i s
  rw [ExecForm, h] at form
  cases hm : i.mnemonic <;> rw [hm] at form
  case LDA | AND | EOR | ORA =>
    obtain ⟨o, -, ⟨⟩⟩ := form
    rw [readOperand_snd_eq]
    exact .intoA _ _ _ (by simp [hm])
  case LDX =>
    obtain ⟨o, -, ⟨⟩⟩ := form
    rw [readOperand_snd_eq]
    exact .intoX _ _ _ (by simp [hm])
  case LDY =>
    obtain ⟨o, -, ⟨⟩⟩ := form
    rw [readOperand_snd_eq]
    exact .intoY _ _ _ (by simp [hm])
  case TXA | TYA => cases form; exact .intoA _ s.draws s.device (by simp [hm])
  case TAX | TSX | DEX | INX => cases form; exact .intoX _ s.draws s.device (by simp [hm])
  case TAY | DEY | INY => cases form; exact .intoY _ s.draws s.device (by simp [hm])
  case TXS => cases form; exact .intoSp _ hm
  case ADC | SBC =>
    obtain ⟨o, -, e⟩ := form
    obtain ⟨r, rfl⟩ := addSub_eq_next e.symm
    rw [readOperand_snd_eq]
    exact .alu r _ _ (by simp [hm])
  case CMP | CPX | CPY =>
    obtain ⟨o, -, ⟨⟩⟩ := form
    rw [readOperand_snd_eq]
    exact .compared _ _ _ _ (by simp [hm])
  case BIT =>
    obtain ⟨m, -, ⟨⟩⟩ := form
    rw [readOperand_snd_eq]
    exact .tested _ _ _ _ _ hm
  case STA | STX | STY =>
    obtain ⟨m, -, ⟨⟩⟩ := form
    rw [storeOperand, effAddr_snd_eq]
    exact .stored _ _ _ _ (by simp [hm])
  case DEC | INC =>
    obtain ⟨m, -, ⟨⟩⟩ := form
    rw [State.setNZ, modifyOperand_mem_snd_p, modifyOperand_mem_snd_eq]
    exact .counted _ _ _ _ (by simp [hm])
  case ASL | LSR | ROL | ROR =>
    obtain ⟨_ | m, ho, ⟨⟩⟩ := form
    · exact .shiftedA _ (eq_accumulator_of_rmw? ho) (by simp [hm])
    · rw [modifyOperand_mem_snd_eq]
      exact .shifted _ _ _ _ (by simp [hm])
  case BCC | BCS | BEQ | BMI | BNE | BPL | BVC | BVS =>
    obtain ⟨d, -, ⟨⟩⟩ := form
    split
    · exact .jumped _ s.draws s.device (by simp [hm])
    · exact .jumped s.pc s.draws s.device (by simp [hm])
  case JMP =>
    obtain ⟨w, -, ⟨⟩⟩ | ⟨w, -, ⟨⟩⟩ := form
    · exact .jumped w s.draws s.device (by simp [hm])
    · rw [indirectTarget_snd_eq]
      exact .jumped _ _ _ (by simp [hm])
  case JSR => obtain ⟨w, -, ⟨⟩⟩ := form; exact .called _ w _ hm
  case RTS => cases form; rw [pull16_snd_eq]; exact .returned _ _ _ hm
  case PHA | PHP => cases form; exact .pushed _ (by simp [hm])
  case PLA => cases form; rw [pull8_snd_eq]; exact .pulledA _ _ _ hm
  case PLP => cases form; rw [pull8_snd_eq]; exact .pulledP _ _ _ hm
  case CLC | SEC => cases form; exact .carry _ (by simp [hm])
  case CLD | SED => cases form; exact .decimal _ (by simp [hm])
  case CLI | SEI => cases form; exact .interrupt _ (by simp [hm])
  case CLV => cases form; exact .overflowCleared hm
  case BRK => cases form; exact .entered _ _ _ hm
  case NOP => cases form; exact .nothing hm
  case RTI => cases form; rw [returnFromHandler_eq]; exact .returnedP _ _ _ _ hm

/-! ## Steps -/

/-- The kinds of step that answer a next state (R64, R205). -/
inductive StepKind (s : State) : State → Prop
  /-- RESB is asserted at the boundary (R230). -/
  | reset (hr : s.lines.resb = .low) : StepKind s (resetSequence (sampleLines s))
  /-- RESB falls inside what begins at the boundary (R205, U8). -/
  | cut {t : State} (hr : s.lines.resb = .fallsInside)
      (hc : resetInside s.lines.irqbLow (sampleLines s) = .ok t) : StepKind s t
  /-- An NMI or IRQ is accepted (R206, R207). -/
  | entry {e : Event} {s0 : State} (hr : s.lines.resb = .high)
      (hp : interruptPoll s.lines.irqbLow (sampleLines s) = (some e, s0)) :
      StepKind s (interruptEntry e s0)
  /-- The instruction at pc runs (R64). -/
  | instruction {i : Instr} {s0 s1 u : State} (hr : s.lines.resb = .high)
      (hp : interruptPoll s.lines.irqbLow (sampleLines s) = (none, s0))
      (hf : fetch s0 = .ok (i, s1)) (hx : exec i s1 = .next u) :
      StepKind s (afterInstr i s1.p.i u)

theorem step_kind (h : step s = .next t) : StepKind s t := by
  unfold step at h
  cases hr : s.lines.resb <;> simp only [hr] at h
  case low => cases h; exact .reset hr
  case fallsInside =>
    split at h
    · cases h
    · cases h; exact .cut hr ‹_›
  case high =>
    rcases hp : interruptPoll s.lines.irqbLow (sampleLines s) with ⟨_ | e, s0⟩ <;>
      simp only [hp] at h
    case none =>
      split at h
      · cases h
      · split at h
        · cases h; exact .instruction hr hp ‹_› ‹_›
        · cases h
        · cases h
    case some => cases h; exact .entry hr hp

end Sys2Proof.Machine
end

section
/-! PROOFS. The family 10_state.md: the well-formedness every step keeps (O50), with reset (O51), the registers and flags an instruction can write (O46, O47), and the reset values (O40). -/

namespace Sys2Proof.Machine

variable {i : Instr} {s t : State}

/-! ## Well-formedness (R37, R40, R48) -/

/-- Well-formedness looks at memory, the record of writes and the map alone. -/
theorem State.wf_congr (hmem : t.mem = s.mem) (hevents : t.events = s.events)
    (hcfg : t.cfg = s.cfg) : t.wf = s.wf := by
  rw [State.wf, State.wf, hmem, hevents, hcfg]

theorem push8_wf (v : Byte) (h : s.wf = true) : (push8 v s).wf = true :=
  memWrite_wf s (stackAddr s.sp) v h

theorem push16_wf (w : Addr) (h : s.wf = true) : (push16 w s).wf = true :=
  push8_wf _ (push8_wf _ h)

theorem pushFrame_wf (ret : Addr) (b : Bool) (h : s.wf = true) : (pushFrame ret b s).wf = true :=
  push8_wf _ (push16_wf ret h)

theorem enterHandler_wf (ret : Addr) (b : Bool) (vector : Addr) (h : s.wf = true) :
    (enterHandler ret b vector s).wf = true := by
  rw [State.wf_congr (enterHandler_mem s ret b vector) (enterHandler_events s ret b vector)
    (by simp)]
  exact pushFrame_wf ret b h

theorem withIPoll_wf (b : Bool) (h : s.wf = true) : State.wf { s with iPoll := b } = true := h

theorem interruptEntry_wf (e : Event) (h : s.wf = true) : (interruptEntry e s).wf = true := by
  cases e with
  | nmi =>
    have hn : State.wf { s with nmiPending := false } = true := h
    exact withIPoll_wf _ (enterHandler_wf s.pc false Config.nmiVector hn)
  | irq => exact withIPoll_wf _ (enterHandler_wf s.pc false Config.irqVector h)

theorem resetSequence_wf (h : s.wf = true) : (resetSequence s).wf = true := by
  rwa [State.wf_congr (s := s) (by simp) (by simp) (by simp)]

theorem interruptPoll_wf {b : Bool} {o : Option Event} (hp : interruptPoll b s = (o, t))
    (h : s.wf = true) : t.wf = true := by
  have ht : t = (interruptPoll b s).2 := by rw [hp]
  rwa [ht, State.wf_congr (s := s) (by simp) (by simp) (by simp)]

theorem fetch_wf (hf : fetch s = .ok (i, t)) (h : s.wf = true) : t.wf = true := by
  rw [fetch_ok s hf]
  exact h

theorem cutShort_wf (l : List Addr) (h : s.wf = true) : (cutShort l s).wf = true := by
  rw [State.wf_congr (s := cutWrites l s) (by simp) (by simp) (by simp)]
  exact cutWrites_wf s l h

theorem resetInside_wf {b : Bool} (hc : resetInside b s = .ok t) (h : s.wf = true) :
    t.wf = true := by
  obtain ⟨e, s0, hp, rfl⟩ | ⟨s0, i, s1, hp, hf, rfl⟩ := resetInside_cases s b hc
  · exact cutShort_wf _ (interruptPoll_wf hp h)
  · exact cutShort_wf _ (fetch_wf hf (interruptPoll_wf hp h))

/-- A completed instruction keeps a state well-formed: its writes of memory do, and the rest changes
no field that well-formedness looks at. -/
theorem ExecEffect.wf (e : ExecEffect i s t) (h : s.wf = true) : t.wf = true := by
  cases e
  case stored | counted | shifted => exact memWrite_wf { s with draws := _, device := _ } _ _ h
  case called => exact push16_wf (s := s.markJsr _) _ h
  case pushed => exact push8_wf _ h
  case entered => exact enterHandler_wf _ _ _ h
  all_goals exact h

/-- Settles O50, by the kinds of step. -/
theorem stepKeepsWellFormedness : Obligations.StepKeepsWellFormedness := by
  intro s t h hstep
  cases step_kind hstep with
  | reset => exact resetSequence_wf (s := sampleLines s) h
  | cut _ hc => exact resetInside_wf (s := sampleLines s) hc h
  | entry _ hp => exact interruptEntry_wf _ (interruptPoll_wf (s := sampleLines s) hp h)
  | instruction _ hp hf hx =>
    exact (exec_effect hx).wf (fetch_wf hf (interruptPoll_wf (s := sampleLines s) hp h))

/-- Settles O51: nothing is in memory and nothing is recorded. -/
theorem resetStateIsWellFormed : Obligations.ResetStateIsWellFormed :=
  Bool.and_eq_true_iff.mpr ⟨Memory.wf_nil, List.all_nil⟩

/-! ## Registers (R21 to R25)

In each lemma the named cases are the effects that write the register: their mnemonics are among those
excluded. -/

theorem ExecEffect.a_eq (e : ExecEffect i s t)
    (hm : i.mnemonic ∉ [.ADC, .AND, .EOR, .LDA, .ORA, .PLA, .SBC, .TXA, .TYA])
    (ho : i.operand ≠ .accumulator) : t.a = s.a := by
  cases e
  case intoA hw | alu hw | pulledA hw => simp_all
  case shiftedA hacc _ => exact absurd hacc ho
  all_goals simp

theorem ExecEffect.x_eq (e : ExecEffect i s t)
    (hm : i.mnemonic ∉ [.DEX, .INX, .LDX, .TAX, .TSX]) : t.x = s.x := by
  cases e
  case intoX hw => exact absurd hw hm
  all_goals simp

theorem ExecEffect.y_eq (e : ExecEffect i s t)
    (hm : i.mnemonic ∉ [.DEY, .INY, .LDY, .TAY]) : t.y = s.y := by
  cases e
  case intoY hw => exact absurd hw hm
  all_goals simp

theorem ExecEffect.sp_eq (e : ExecEffect i s t)
    (hm : i.mnemonic ∉ [.PHA, .PHP, .PLA, .PLP, .JSR, .RTS, .RTI, .BRK, .TXS]) : t.sp = s.sp := by
  cases e
  case intoSp hw | called hw | returned hw | pushed hw | pulledA hw | pulledP hw | entered hw |
    returnedP hw => simp_all
  all_goals simp

theorem ExecEffect.pc_eq (e : ExecEffect i s t)
    (hm : i.mnemonic ∉ [.BCC, .BCS, .BEQ, .BMI, .BNE, .BPL, .BVC, .BVS, .JMP, .JSR, .RTS, .RTI,
      .BRK]) : t.pc = s.pc := by
  cases e
  case jumped hw | called hw | returned hw | entered hw | returnedP hw => simp_all
  all_goals simp

/-- Settles O46, register by register. -/
theorem onlyListedInstructionsWriteARegister :
    Obligations.OnlyListedInstructionsWriteARegister := by
  intro i s t h
  have e := exec_effect h
  exact ⟨e.a_eq, e.x_eq, e.y_eq, e.sp_eq, e.pc_eq⟩

/-! ## Flags (R27 to R34, R175) -/

theorem ExecEffect.c_eq (e : ExecEffect i s t)
    (hm : i.mnemonic ∉ [.ADC, .SBC, .CMP, .CPX, .CPY, .ASL, .ROL, .LSR, .ROR, .SEC, .CLC, .PLP,
      .RTI]) : t.p.c = s.p.c := by
  cases e
  case alu hw | compared hw | shiftedA hw | shifted hw | carry hw | pulledP hw | returnedP hw =>
    simp_all
  all_goals simp

/-- Z and N are written together. -/
theorem ExecEffect.z_eq_and_n_eq (e : ExecEffect i s t)
    (hm : i.mnemonic ∉ [.ADC, .AND, .ASL, .CMP, .CPX, .CPY, .DEC, .DEX, .DEY, .EOR, .INC, .INX,
      .INY, .LDA, .LDX, .LDY, .LSR, .ORA, .PLA, .ROL, .ROR, .SBC, .TAX, .TAY, .TSX, .TXA, .TYA,
      .BIT, .PLP, .RTI]) : t.p.z = s.p.z ∧ t.p.n = s.p.n := by
  cases e
  case intoA hw | intoX hw | intoY hw | alu hw | compared hw | tested hw | counted hw |
    shiftedA hw | shifted hw | pulledA hw | pulledP hw | returnedP hw => simp_all
  all_goals simp

theorem ExecEffect.i_eq (e : ExecEffect i s t)
    (hm : i.mnemonic ∉ [.SEI, .BRK, .CLI, .PLP, .RTI]) : t.p.i = s.p.i := by
  cases e
  case interrupt hw | entered hw | pulledP hw | returnedP hw => simp_all
  all_goals simp

theorem ExecEffect.d_eq (e : ExecEffect i s t)
    (hm : i.mnemonic ∉ [.SED, .CLD, .PLP, .RTI]) : t.p.d = s.p.d := by
  cases e
  case decimal hw | pulledP hw | returnedP hw => simp_all
  all_goals simp

theorem ExecEffect.v_eq (e : ExecEffect i s t)
    (hm : i.mnemonic ∉ [.ADC, .SBC, .BIT, .CLV, .PLP, .RTI]) : t.p.v = s.p.v := by
  cases e
  case alu hw | tested hw | overflowCleared hw | pulledP hw | returnedP hw => simp_all
  all_goals simp

theorem v_eq_false_of_exec_clv (h : exec i s = .next t) (hm : i.mnemonic = .CLV) :
    t.p.v = false := by
  rw [exec_clv hm] at h
  cases h
  rfl

/-- R33, R175: of the instructions that write V, CLV clears it; only the others can set it. -/
theorem mnemonic_of_exec_sets_v (h : exec i s = .next t) (ht : t.p.v = true)
    (hs : s.p.v = false) : i.mnemonic ∈ [.ADC, .SBC, .BIT, .PLP, .RTI] := by
  by_contra hn
  by_cases hclv : i.mnemonic = .CLV
  · rw [v_eq_false_of_exec_clv h hclv] at ht
    cases ht
  · have hv := (exec_effect h).v_eq (by simp_all)
    rw [ht, hs] at hv
    cases hv

/-- Settles O47, flag by flag. -/
theorem onlyListedInstructionsWriteAFlag : Obligations.OnlyListedInstructionsWriteAFlag := by
  intro i s t h
  have e := exec_effect h
  exact ⟨e.c_eq, e.z_eq_and_n_eq, e.i_eq, e.d_eq, e.v_eq, mnemonic_of_exec_sets_v h⟩

/-! ## Reset (R39, R4) -/

/-- Settles O40: each value is written out in the definition of the reset state, pc as the word at
the reset vector in the empty memory. -/
theorem resetStateHasTheSpecifiedValues : Obligations.ResetStateHasTheSpecifiedValues :=
  ⟨rfl, rfl, rfl, rfl, rfl, rfl, rfl, rfl⟩

end Sys2Proof.Machine
end

section
/-! PROOFS. What the model writes: one relation that lists the addresses of the writes between two states, and the lemmas that a completed instruction and an entry write at their store addresses and that every step is such a list of writes. The frames of memory, of the record and of the map follow from it. -/

namespace Sys2Proof.Machine

variable {i : Instr} {s t u : State}

/-! ## Reads -/

/-- Between `s` and `t` there are only reads and changes of registers: memory, the record of writes and
the map stay, and free values are used up, never given back. -/
structure ReadsOnly (s t : State) : Prop where
  mem_eq : t.mem = s.mem
  events_eq : t.events = s.events
  cfg_eq : t.cfg = s.cfg
  draws_le : s.draws ≤ t.draws

theorem ReadsOnly.of_registers (hmem : t.mem = s.mem := by rfl)
    (hevents : t.events = s.events := by rfl) (hcfg : t.cfg = s.cfg := by rfl)
    (hdraws : t.draws = s.draws := by rfl) : ReadsOnly s t :=
  ⟨hmem, hevents, hcfg, hdraws.ge⟩

theorem ReadsOnly.trans (h : ReadsOnly s t) (h' : ReadsOnly t u) : ReadsOnly s u :=
  ⟨h'.mem_eq.trans h.mem_eq, h'.events_eq.trans h.events_eq, h'.cfg_eq.trans h.cfg_eq,
    h.draws_le.trans h'.draws_le⟩

theorem drawn_readsOnly (s : State) : ReadsOnly s s.drawn :=
  ⟨rfl, rfl, rfl, Nat.le_succ s.draws⟩

theorem touch_readsOnly (s : State) (a : Addr) : ReadsOnly s (s.touch a) := by
  unfold State.touch
  split
  case h_1 | h_2 => exact .of_registers
  case h_3 => exact ⟨rfl, rfl, rfl, Nat.le_succ s.draws⟩
  case h_4 => exact drawn_readsOnly s

theorem readPair_readsOnly (low high : Addr) (s : State) : ReadsOnly s (readPair low high s).2 :=
  (touch_readsOnly s low).trans (touch_readsOnly (s.touch low) high)

theorem effAddr_readsOnly (m : MemMode) (s : State) : ReadsOnly s (effAddr m s).2 := by
  cases m with
  | zp | zpX | zpY | abs | absX | absY => exact .of_registers
  | indX | indY => exact readPair_readsOnly _ _ s

theorem readOperand_readsOnly (o : Src) (s : State) : ReadsOnly s (readOperand o s).2 := by
  cases o with
  | imm => exact .of_registers
  | mem m => exact (effAddr_readsOnly m s).trans (touch_readsOnly _ _)

theorem pull8_readsOnly (s : State) : ReadsOnly s (pull8 s).2 :=
  .trans .of_registers (touch_readsOnly (s.setSp (s.sp + 1#8)) _)

theorem pull16_readsOnly (s : State) : ReadsOnly s (pull16 s).2 :=
  (pull8_readsOnly s).trans (pull8_readsOnly _)

theorem returnFromHandler_readsOnly (s : State) : ReadsOnly s (returnFromHandler s) where
  mem_eq := returnFromHandler_mem s
  events_eq := returnFromHandler_events s
  cfg_eq := returnFromHandler_cfg s
  draws_le := by
    simp only [returnFromHandler, State.setPc_draws]
    exact (pull16_readsOnly _).draws_le.trans' (pull8_readsOnly s).draws_le

theorem sampleLines_readsOnly (s : State) : ReadsOnly s (sampleLines s) :=
  .of_registers (sampleLines_mem s) (sampleLines_events s) (sampleLines_cfg s) (sampleLines_draws s)

theorem irqUnmasked_readsOnly (s : State) : ReadsOnly s (irqUnmasked s).2 := by
  unfold irqUnmasked
  split
  case h_1 | h_2 => exact .of_registers
  case h_3 =>
    split
    · exact .of_registers
    · exact drawn_readsOnly s

theorem interruptPoll_readsOnly {b : Bool} {o : Option Event} (h : interruptPoll b s = (o, t)) :
    ReadsOnly s t := by
  unfold interruptPoll at h
  split at h
  · cases h; exact .of_registers
  · split at h
    · cases h; exact irqUnmasked_readsOnly s
    · cases h; exact .of_registers

theorem readBytes_readsOnly (n : Nat) (a : Addr) (s : State) : ReadsOnly s (readBytes n a s).2 := by
  induction n generalizing a s with
  | zero => exact .of_registers
  | succ n ih => exact (touch_readsOnly s a).trans (ih (a + 1#16) (s.touch a))

theorem fetch_readsOnly (h : fetch s = .ok (i, t)) : ReadsOnly s t := by
  unfold fetch at h
  simp only at h
  split at h
  · cases h
  · split at h
    · cases h
      exact ((touch_readsOnly s s.pc).trans (readBytes_readsOnly _ _ _)).trans .of_registers
    · cases h

/-- A reset writes nothing (R230). -/
theorem resetSequence_readsOnly (s : State) : ReadsOnly s (resetSequence s) where
  mem_eq := resetSequence_mem s
  events_eq := resetSequence_events s
  cfg_eq := resetSequence_cfg s
  draws_le := by
    simp only [resetSequence, State.setPc_draws]
    exact (readPair_readsOnly _ _ _).draws_le.trans' (Nat.le_add_right s.draws 5)

/-- After the open writes a reset inside an instruction only resets (R205). -/
theorem cutShort_readsOnly (addrs : List Addr) (s : State) :
    ReadsOnly (cutWrites addrs s) (cutShort addrs s) where
  mem_eq := cutShort_mem s addrs
  events_eq := cutShort_events s addrs
  cfg_eq := by simp
  draws_le := (resetSequence_readsOnly _).draws_le.trans' (Nat.le_succ _)

/-- After its pushes an exception only reads its vector (R185, R207). -/
theorem enterHandler_readsOnly (ret : Addr) (b : Bool) (vector : Addr) (s : State) :
    ReadsOnly (pushFrame ret b s) (enterHandler ret b vector s) where
  mem_eq := enterHandler_mem s ret b vector
  events_eq := enterHandler_events s ret b vector
  cfg_eq := by simp
  draws_le := by
    simp only [enterHandler_eq]
    exact (readPair_readsOnly _ _ _).draws_le

/-! ## Writes in order -/

/-- `t` comes from `s` by one write at each of the listed addresses, in their order, with only reads and
changes of registers around the writes. -/
inductive WritesAt : List Addr → State → State → Prop
  | done {s t : State} (hr : ReadsOnly s t) : WritesAt [] s t
  | write {s u t : State} {a : Addr} {v : Byte} {rest : List Addr} (hw : WroteByte s u a v)
      (hcfg : u.cfg = s.cfg) (hdraws : s.draws ≤ u.draws) (hrest : WritesAt rest u t) :
      WritesAt (a :: rest) s t

namespace WritesAt

variable {addrs rest : List Addr}

theorem after_reads (hr : ReadsOnly s u) (h : WritesAt addrs u t) : WritesAt addrs s t := by
  cases h with
  | done hr' => exact .done (hr.trans hr')
  | write hw hcfg hdraws hrest =>
    exact .write (hw.of_read hr.mem_eq hr.events_eq hr.cfg_eq) (hcfg.trans hr.cfg_eq)
      (hr.draws_le.trans hdraws) hrest

theorem then_reads (h : WritesAt addrs s t) (hr : ReadsOnly t u) : WritesAt addrs s u := by
  induction h with
  | done hr' => exact .done (hr'.trans hr)
  | write hw hcfg hdraws _ ih => exact .write hw hcfg hdraws (ih hr)

theorem one {a : Addr} {v : Byte} (hw : WroteByte s t a v) (hcfg : t.cfg = s.cfg)
    (hdraws : s.draws ≤ t.draws) : WritesAt [a] s t :=
  .write hw hcfg hdraws (.done .of_registers)

/-! ## What a list of writes leaves alone -/

theorem cfg_eq (h : WritesAt addrs s t) : t.cfg = s.cfg := by
  induction h with
  | done hr => exact hr.cfg_eq
  | write _ hcfg _ _ ih => exact ih.trans hcfg

theorem draws_le (h : WritesAt addrs s t) : s.draws ≤ t.draws := by
  induction h with
  | done hr => exact hr.draws_le
  | write _ _ hdraws _ ih => exact hdraws.trans ih

theorem readsOnly_of_nil (h : WritesAt [] s t) : ReadsOnly s t := by
  cases h with
  | done hr => exact hr

/-- A byte that no write addresses stays. -/
theorem byteAt_of_notMem (h : WritesAt addrs s t) {b : Addr} (hb : b ∉ addrs) :
    t.byteAt b = s.byteAt b := by
  induction h with
  | done hr => rw [State.byteAt, hr.mem_eq]
  | write hw _ _ _ ih =>
    obtain ⟨hne, hrest⟩ := not_or.mp (mt List.mem_cons.mpr hb)
    obtain ⟨hother, -, -⟩ := hw
    rw [ih hrest, hother b hne]

/-- A byte outside ram stays, written or not (R48). -/
theorem byteAt_of_not_ram (h : WritesAt addrs s t) {b : Addr} (hb : s.kindAt b ≠ .ram) :
    t.byteAt b = s.byteAt b := by
  induction h with
  | done hr => rw [State.byteAt, hr.mem_eq]
  | @write s u t a v rest hw hcfg _ _ ih =>
    obtain ⟨hother, -, hout⟩ := hw
    rw [ih (by rwa [State.kindAt_congr hcfg])]
    by_cases hba : b = a
    · subst hba
      exact (hout hb).1
    · exact hother b hba

/-- The writes recorded are those outside ram, newest first (R48, U6). -/
theorem exists_events (h : WritesAt addrs s t) : ∃ written : List Host.Cell,
    t.events = written ++ s.events ∧
      (written.map (·.1)).reverse =
        (addrs.filter fun a => decide (s.kindAt a ≠ .ram)).map BitVec.toNat := by
  induction h with
  | done hr => exact ⟨[], hr.events_eq, rfl⟩
  | @write s u t a v rest hw hcfg _ _ ih =>
    obtain ⟨-, hram, hout⟩ := hw
    obtain ⟨written, hevents, haddrs⟩ := ih
    simp only [State.kindAt_congr hcfg] at haddrs
    by_cases hk : s.kindAt a = .ram
    · refine ⟨written, ?_, ?_⟩
      · rw [hevents, (hram hk).2]
      · simpa [hk] using haddrs
    · refine ⟨written ++ [(a.toNat, v)], ?_, ?_⟩
      · rw [hevents, (hout hk).2, List.append_cons]
      · simpa [hk] using haddrs

end WritesAt

/-! ## The writes of the shared operations -/

variable {rest : List Addr}

theorem storeOperand_writesAt (m : MemMode) (v : Byte) (s : State) :
    WritesAt [(effAddr m s).1] s (storeOperand m v s) :=
  .one (storeOperand_wroteByte s m v) (storeOperand_cfg s m v)
    (by simpa using (effAddr_readsOnly m s).draws_le)

theorem modifyOperand_writesAt (m : MemMode) (f : Byte → Byte) (s : State) :
    WritesAt [(effAddr m s).1] s (modifyOperand (.mem m) f s).2 :=
  .one (modifyOperand_mem_wroteByte s m f) (modifyOperand_mem_snd_cfg s m f)
    (by simpa using (readOperand_readsOnly (.mem m) s).draws_le)

/-- A push is the first write of a list of writes (R8). -/
theorem push8_writesAt {v : Byte} (h : WritesAt rest (push8 v s) t) :
    WritesAt (stackAddr s.sp :: rest) s t :=
  .write (push8_wroteByte s v) (push8_cfg s v) (push8_draws s v).ge h

/-- A word pushed is the first two writes of a list of writes (R8). -/
theorem push16_writesAt {w : Addr} (h : WritesAt rest (push16 w s) t) :
    WritesAt (stackAddr s.sp :: stackAddr (s.sp - 1#8) :: rest) s t := by
  refine push8_writesAt (v := highByte w) ?_
  rw [← push8_sp s (highByte w)]
  exact push8_writesAt h

/-- Taking an exception writes the three bytes it pushes (R185, R207). -/
theorem enterHandler_writesAt (ret : Addr) (b : Bool) (vector : Addr) (s : State) :
    WritesAt (entryAddrs s) s (enterHandler ret b vector s) := by
  refine push16_writesAt (w := ret) ?_
  rw [← push16_sp s ret]
  have hvector := enterHandler_readsOnly ret b vector s
  rw [pushFrame] at hvector
  exact push8_writesAt (.done hvector)

theorem withIPoll_readsOnly (s : State) (b : Bool) : ReadsOnly s { s with iPoll := b } :=
  .of_registers

theorem interruptEntry_writesAt (e : Event) (s : State) :
    WritesAt (entryAddrs s) s (interruptEntry e s) := by
  cases e with
  | nmi =>
    have hw := enterHandler_writesAt s.pc false Config.nmiVector { s with nmiPending := false }
    exact (hw.then_reads (withIPoll_readsOnly _ _)).after_reads .of_registers
  | irq =>
    exact (enterHandler_writesAt s.pc false Config.irqVector s).then_reads (withIPoll_readsOnly _ _)

/-- Of the writes of an instruction that a reset cuts short some are made (R205, U8). -/
theorem cutWrites_writesAt (addrs : List Addr) (s : State) :
    ∃ made, WritesAt made s (cutWrites addrs s) := by
  induction addrs generalizing s with
  | nil =>
    rw [cutWrites]
    exact ⟨[], .done .of_registers⟩
  | cons a rest ih =>
    obtain hskipped | ⟨v, hmade⟩ := cutWrites_cons s a rest
    · obtain ⟨made, h⟩ := ih s.drawn
      exact ⟨made, hskipped ▸ h.after_reads (drawn_readsOnly s)⟩
    · obtain ⟨made, h⟩ := ih (memWrite a v s.drawn)
      have hw : WritesAt (a :: made) s.drawn _ :=
        .write (memWrite_wroteByte _ a v) (memWrite_cfg _ a v) (memWrite_draws _ a v).ge h
      exact ⟨a :: made, hmade ▸ hw.after_reads (drawn_readsOnly s)⟩

theorem cutShort_writesAt (addrs : List Addr) (s : State) :
    ∃ made, WritesAt made s (cutShort addrs s) := by
  obtain ⟨made, h⟩ := cutWrites_writesAt addrs s
  exact ⟨made, h.then_reads (cutShort_readsOnly addrs s)⟩

/-! ## The store addresses of an instruction (R47) -/

theorem storeAddrs_eq_nil (s : State)
    (h : i.mnemonic ∉ [.STA, .STX, .STY, .INC, .DEC, .ASL, .LSR, .ROL, .ROR, .PHA, .PHP, .JSR,
      .BRK] ∨ i.operand = .accumulator) : storeAddrs i s = [] := by
  rcases h with hm | ho
  · unfold storeAddrs
    split <;> simp_all
  · cases i
    case aslAcc | lsrAcc | rolAcc | rorAcc => rfl
    all_goals cases ho

theorem storeAddrs_of_memory {m : MemMode} (s : State)
    (hm : i.mnemonic ∈ [.STA, .STX, .STY, .INC, .DEC, .ASL, .LSR, .ROL, .ROR])
    (ho : i.operand = .memory m) : storeAddrs i s = [(effAddr m s).1] := by
  unfold storeAddrs
  split <;> simp_all

/-- Only a byte of memory is read and written back at an effective address (R82). -/
theorem eq_memory_of_rmw? {o : Operand} {m : MemMode} (h : o.rmw? = some (.mem m)) :
    o = .memory m := by
  cases o with
  | memory => cases h; rfl
  | implied | accumulator | immediate | target | indirect | relative => cases h

/-- A completed instruction writes at its store addresses, in their order (R47). -/
theorem exec_writesAt (h : exec i s = .next t) : WritesAt (storeAddrs i s) s t := by
  have form := execForm i s
  rw [ExecForm, h] at form
  cases hm : i.mnemonic <;> rw [hm] at form
  case LDA | LDX | LDY | AND | EOR | ORA | CMP | CPX | CPY =>
    obtain ⟨o, -, ⟨⟩⟩ := form
    rw [storeAddrs_eq_nil s (.inl (by simp [hm]))]
    exact .done ((readOperand_readsOnly o s).trans .of_registers)
  case BIT =>
    obtain ⟨m, -, ⟨⟩⟩ := form
    rw [storeAddrs_eq_nil s (.inl (by simp [hm]))]
    exact .done ((readOperand_readsOnly (.mem m) s).trans .of_registers)
  case ADC | SBC =>
    obtain ⟨o, -, e⟩ := form
    obtain ⟨r, rfl⟩ := addSub_eq_next e.symm
    rw [storeAddrs_eq_nil s (.inl (by simp [hm]))]
    exact .done ((readOperand_readsOnly o s).trans .of_registers)
  case STA | STX | STY =>
    obtain ⟨m, ho, ⟨⟩⟩ := form
    rw [storeAddrs_of_memory s (by simp [hm]) ho]
    exact storeOperand_writesAt m _ s
  case DEC | INC =>
    obtain ⟨m, ho, ⟨⟩⟩ := form
    rw [storeAddrs_of_memory s (by simp [hm]) ho]
    exact (modifyOperand_writesAt m _ s).then_reads .of_registers
  case ASL | LSR | ROL | ROR =>
    obtain ⟨_ | m, ho, ⟨⟩⟩ := form
    · rw [storeAddrs_eq_nil s (.inr (eq_accumulator_of_rmw? ho))]
      exact .done .of_registers
    · rw [storeAddrs_of_memory s (by simp [hm]) (eq_memory_of_rmw? ho)]
      exact (modifyOperand_writesAt m _ s).then_reads .of_registers
  case BCC | BCS | BEQ | BMI | BNE | BPL | BVC | BVS =>
    obtain ⟨d, -, ⟨⟩⟩ := form
    rw [storeAddrs_eq_nil s (.inl (by simp [hm]))]
    split
    · exact .done .of_registers
    · exact .done .of_registers
  case JMP =>
    rw [storeAddrs_eq_nil s (.inl (by simp [hm]))]
    obtain ⟨w, -, ⟨⟩⟩ | ⟨w, -, ⟨⟩⟩ := form
    · exact .done .of_registers
    · exact .done ((readPair_readsOnly _ _ s).trans .of_registers)
  case JSR =>
    obtain ⟨w, -, ⟨⟩⟩ := form
    rw [storeAddrs, hm]
    exact .after_reads .of_registers (push16_writesAt (s := s.markJsr _) (.done .of_registers))
  case PHA | PHP =>
    cases form
    rw [storeAddrs, hm]
    exact push8_writesAt (.done .of_registers)
  case BRK =>
    cases form
    rw [storeAddrs, hm]
    exact enterHandler_writesAt _ _ _ s
  case RTS =>
    cases form
    rw [storeAddrs_eq_nil s (.inl (by simp [hm]))]
    exact .done ((pull16_readsOnly s).trans .of_registers)
  case PLA | PLP =>
    cases form
    rw [storeAddrs_eq_nil s (.inl (by simp [hm]))]
    exact .done ((pull8_readsOnly s).trans .of_registers)
  case RTI =>
    cases form
    rw [storeAddrs_eq_nil s (.inl (by simp [hm]))]
    exact .done (returnFromHandler_readsOnly s)
  case TAX | TAY | TSX | TXA | TXS | TYA | DEX | DEY | INX | INY | CLC | CLD | CLI | CLV | SEC |
      SED | SEI | NOP =>
    cases form
    rw [storeAddrs_eq_nil s (.inl (by simp [hm]))]
    exact .done .of_registers

/-- A step that a reset cuts short makes some of the writes of what it cuts (R205, U8). -/
theorem resetInside_writesAt {b : Bool} (h : resetInside b s = .ok t) :
    ∃ addrs, WritesAt addrs s t := by
  obtain ⟨e, s0, hp, rfl⟩ | ⟨s0, i, s1, hp, hf, rfl⟩ := resetInside_cases s b h
  · obtain ⟨made, hw⟩ := cutShort_writesAt (entryAddrs s0) s0
    exact ⟨made, hw.after_reads (interruptPoll_readsOnly hp)⟩
  · obtain ⟨made, hw⟩ := cutShort_writesAt (storeAddrs i s1) s1
    exact ⟨made, hw.after_reads ((interruptPoll_readsOnly hp).trans (fetch_readsOnly hf))⟩

/-- Whatever kind of step it is, it changes memory, the record and the map by a list of writes. -/
theorem step_writesAt (h : step s = .next t) : ∃ addrs, WritesAt addrs s t := by
  have hsample := sampleLines_readsOnly s
  cases step_kind h with
  | reset => exact ⟨[], .done (hsample.trans (resetSequence_readsOnly _))⟩
  | cut _ hc =>
    obtain ⟨addrs, hw⟩ := resetInside_writesAt hc
    exact ⟨addrs, hw.after_reads hsample⟩
  | entry _ hp =>
    have hpolled := hsample.trans (interruptPoll_readsOnly hp)
    exact ⟨_, (interruptEntry_writesAt _ _).after_reads hpolled⟩
  | instruction _ hp hf hx =>
    have hfetched := (hsample.trans (interruptPoll_readsOnly hp)).trans (fetch_readsOnly hf)
    exact ⟨_, ((exec_writesAt hx).after_reads hfetched).then_reads (withIPoll_readsOnly _ _)⟩

end Sys2Proof.Machine
end

section
/-! PROOFS. The family 20_memory.md: what an access does at each kind of address (O60), what no step changes (O49), who writes memory and where (O48, O59), and that a store is seen by the next fetch (O38). -/

namespace Sys2Proof.Machine

variable {i : Instr} {s t : State}

/-! ## One access (R48, U5, U6) -/

theorem memRead_device {a : Addr} (h : s.kindAt a = .device) :
    memRead a s = (Config.deviceByte s.device s.draws a.toNat, s.answered a.toNat) := by
  simp [memRead, State.peek, State.touch, h]

theorem memRead_unmapped {a : Addr} (h : s.kindAt a = .unmapped) :
    memRead a s = (Config.busByte s.draws a.toNat, s.drawn) := by
  simp [memRead, State.peek, State.touch, h]

/-- R50: ram is read back as it was written. -/
theorem memRead_memWrite_ram {a : Addr} (v : Byte) (h : s.kindAt a = .ram) :
    memRead a (memWrite a v s) = (v, memWrite a v s) := by
  have hk : (memWrite a v s).kindAt a = .ram := (State.kindAt_congr (memWrite_cfg s a v) a).trans h
  obtain ⟨-, hram, -⟩ := memWrite_wroteByte s a v
  rw [memRead_plain _ (.inl hk), (hram h).1]

/-- Settles O60, kind by kind. -/
theorem accessesFollowTheKindOfAddress : Obligations.AccessesFollowTheKindOfAddress := by
  refine ⟨fun a s => memRead_plain s, fun a s => memRead_device, fun a s => memRead_unmapped,
    fun a v s h => ⟨memRead_memWrite_ram v h, ?frame, ?other⟩, fun a v s => memWrite_not_ram s v⟩
  case frame => rw [memWrite_ram s v h]; rfl
  case other =>
    obtain ⟨hother, -, -⟩ := memWrite_wroteByte s a v
    exact hother

/-! ## What no step changes (R48) -/

/-- Settles O49: every step is a list of writes, and no write changes the map or a byte outside ram. -/
theorem stepKeepsReadOnlyMemory : Obligations.StepKeepsReadOnlyMemory := by
  intro s t h
  obtain ⟨addrs, hw⟩ := step_writesAt h
  exact ⟨hw.cfg_eq, fun a => hw.byteAt_of_not_ram⟩

/-! ## Who writes memory, and where (R47) -/

theorem ExecEffect.nmiPending_eq (e : ExecEffect i s t) : t.nmiPending = s.nmiPending := by
  cases e <;> simp

theorem ExecEffect.iPoll_eq (e : ExecEffect i s t) : t.iPoll = s.iPoll := by
  cases e <;> simp

theorem ExecEffect.schedule_eq (e : ExecEffect i s t) : t.schedule = s.schedule := by
  cases e <;> simp

theorem ExecEffect.nmibLow_eq (e : ExecEffect i s t) : t.nmibLow = s.nmibLow := by
  cases e <;> simp

/-- Settles O48: an instruction that is not listed has no store addresses. -/
theorem onlyStoringInstructionsWriteMemory : Obligations.OnlyStoringInstructionsWriteMemory := by
  intro i s t h
  have hw := exec_writesAt h
  have e := exec_effect h
  refine ⟨fun hi => ?_, e.nmiPending_eq, e.iPoll_eq, hw.cfg_eq, e.schedule_eq, e.nmibLow_eq,
    hw.draws_le⟩
  rw [storeAddrs_eq_nil s hi] at hw
  exact ⟨hw.readsOnly_of_nil.mem_eq, hw.readsOnly_of_nil.events_eq⟩

/-- Settles O59, from the lists of writes of an instruction and of an entry. -/
theorem instructionsWriteOnlyAtTheirStoreAddresses :
    Obligations.InstructionsWriteOnlyAtTheirStoreAddresses := by
  refine ⟨fun i s t h b => (exec_writesAt h).byteAt_of_notMem,
    fun i s t h => (exec_writesAt h).exists_events, ?entry⟩
  case entry =>
    rintro e s t rfl b
    exact (interruptEntry_writesAt e s).byteAt_of_notMem

/-! ## A store and the next fetch (R53, R61) -/

/-- Bytes that decode to an instruction with none left over are as many as the opcode asks for. -/
theorem opcodeLength_of_decode {op : Byte} {operand : List Byte}
    (h : decode (op :: operand) = .ok (i, [])) : opcodeLength op = some (operand.length + 1) := by
  rw [opcodeLength]
  unfold decode at h
  simp only at h
  split at h
  case h_1 => cases h
  case h_2 hrow => cases h; rw [hrow]; rfl
  case h_3 hrow => cases h; rw [hrow]; rfl
  case h_4 hrow => cases h; rw [hrow]; rfl
  case h_5 => cases h

theorem readBytes_length (n : Nat) (a : Addr) (s : State) : (readBytes n a s).1.length = n := by
  induction n generalizing a s with
  | zero => rfl
  | succ n ih => exact congrArg Nat.succ (ih (a + 1#16) (s.touch a))

/-- Bytes read from pc on that decode to an instruction are fetched as it (R61, R64). -/
theorem fetch_of_decode_readBytes {n : Nat} (h : decode (readBytes n s.pc s).1 = .ok (i, [])) :
    fetch s = .ok (i, (readBytes n s.pc s).2.setPc (s.pc + BitVec.ofNat 16 n)) := by
  cases n with
  | zero => cases h
  | succ n =>
    simp only [readBytes, memRead_fst, memRead_snd] at h ⊢
    have hlen := opcodeLength_of_decode h
    rw [readBytes_length] at hlen
    simp only [fetch, memRead_fst, memRead_snd, hlen, Nat.add_sub_cancel, h]

/-- Plain bytes at pc that decode to an instruction are fetched as it, and nothing but pc changes. -/
theorem fetch_of_decode_plain (hplain : ∀ k < i.length, s.Plain (s.pc + BitVec.ofNat 16 k))
    (hdec : decode ((List.range i.length).map fun k => s.byteAt (s.pc + BitVec.ofNat 16 k)) =
      .ok (i, [])) :
    fetch s = .ok (i, s.setPc (s.pc + BitVec.ofNat 16 i.length)) := by
  have hread := readBytes_plain s i.length s.pc hplain
  have hfetch := fetch_of_decode_readBytes (s := s) (n := i.length) (i := i) (by rw [hread, hdec])
  rwa [hread] at hfetch

/-- A byte after one write to ram: the value written, or what was there. -/
theorem WroteByte.byteAt_of_ram {w : Addr} {v : Byte} (h : WroteByte s t w v)
    (hram : s.kindAt w = .ram) (b : Addr) :
    t.byteAt b = if b = w then v else s.byteAt b := by
  obtain ⟨hother, hsame, -⟩ := h
  split
  case isTrue hb => rw [hb, (hsame hram).1]
  case isFalse hb => exact hother b hb

/-- A fetch sees the byte that one write to ram has put among those of the instruction at pc. -/
theorem fetch_of_wroteByte {w : Addr} {v : Byte} {bytes : List Byte} (hram : s.kindAt w = .ram)
    (hcfg : t.cfg = s.cfg) (hw : WroteByte s t w v)
    (hbytes : bytes = (List.range i.length).map fun k =>
      if t.pc + BitVec.ofNat 16 k = w then v else s.byteAt (t.pc + BitVec.ofNat 16 k))
    (hplain : ∀ k < i.length, s.Plain (t.pc + BitVec.ofNat 16 k))
    (hdec : decode bytes = .ok (i, [])) :
    fetch t = .ok (i, t.setPc (t.pc + BitVec.ofNat 16 i.length)) := by
  refine fetch_of_decode_plain (fun k hk => ?plain) ?dec
  case plain =>
    rw [State.Plain, State.kindAt_congr hcfg]
    exact hplain k hk
  case dec =>
    simp only [hw.byteAt_of_ram hram]
    rw [← hbytes, hdec]

/-- Settles O38: the first clause is the second for the state that the write itself leaves. -/
theorem storesAreSeenByTheNextFetch : Obligations.StoresAreSeenByTheNextFetch := by
  refine ⟨fun w pc v i s bytes hram hbytes hplain hdec => ?_,
    fun w v i s t bytes => fetch_of_wroteByte⟩
  exact fetch_of_wroteByte (t := (memWrite w v s).setPc pc) hram (memWrite_cfg s w v)
    (memWrite_wroteByte s w v) hbytes hplain hdec

end Sys2Proof.Machine
end

section
/-! PROOFS. The opcode map as a table (R65, R66): each of its 151 opcodes stands in one row, the other 105 bytes in none, and every instruction is made by a row. -/

namespace Sys2Proof

/-! ## The 256 opcode bytes -/

/-- The bytes that R66 lists as unassigned. -/
def unassignedOpcodes : List Byte :=
  [0x02#8, 0x03#8, 0x04#8, 0x07#8, 0x0B#8, 0x0C#8, 0x0F#8, 0x12#8, 0x13#8, 0x14#8, 0x17#8,
   0x1A#8, 0x1B#8, 0x1C#8, 0x1F#8, 0x22#8, 0x23#8, 0x27#8, 0x2B#8, 0x2F#8, 0x32#8, 0x33#8,
   0x34#8, 0x37#8, 0x3A#8, 0x3B#8, 0x3C#8, 0x3F#8, 0x42#8, 0x43#8, 0x44#8, 0x47#8, 0x4B#8,
   0x4F#8, 0x52#8, 0x53#8, 0x54#8, 0x57#8, 0x5A#8, 0x5B#8, 0x5C#8, 0x5F#8, 0x62#8, 0x63#8,
   0x64#8, 0x67#8, 0x6B#8, 0x6F#8, 0x72#8, 0x73#8, 0x74#8, 0x77#8, 0x7A#8, 0x7B#8, 0x7C#8,
   0x7F#8, 0x80#8, 0x82#8, 0x83#8, 0x87#8, 0x89#8, 0x8B#8, 0x8F#8, 0x92#8, 0x93#8, 0x97#8,
   0x9B#8, 0x9C#8, 0x9E#8, 0x9F#8, 0xA3#8, 0xA7#8, 0xAB#8, 0xAF#8, 0xB2#8, 0xB3#8, 0xB7#8,
   0xBB#8, 0xBF#8, 0xC2#8, 0xC3#8, 0xC7#8, 0xCB#8, 0xCF#8, 0xD2#8, 0xD3#8, 0xD4#8, 0xD7#8,
   0xDA#8, 0xDB#8, 0xDC#8, 0xDF#8, 0xE2#8, 0xE3#8, 0xE7#8, 0xEB#8, 0xEF#8, 0xF2#8, 0xF3#8,
   0xF4#8, 0xF7#8, 0xFA#8, 0xFB#8, 0xFC#8, 0xFF#8]

/-- The one evaluation of the whole map: no byte is neither assigned nor listed as unassigned. -/
theorem mem_unassignedOpcodes_of_findRow :
    ∀ op : Byte, (findRow op.toNat opcodeRows).isNone = true → op ∈ unassignedOpcodes := by
  decide

/-- The opcodes of the map and the unassigned bytes are the 256 bytes, each once: they cover them, and
they are 151 and 105. -/
theorem range_perm_opcodes :
    (List.range 256).Perm (opcodeRows.map (·.1) ++ unassignedOpcodes.map BitVec.toNat) := by
  refine (List.nodup_range.subperm fun n hn => ?cover).perm_of_length_le ?count
  case count =>
    have hassigned : opcodeRows.length = 151 := rfl
    have hunassigned : unassignedOpcodes.length = 105 := rfl
    simp [hassigned, hunassigned]
  case cover =>
    have htoNat : (BitVec.ofNat 8 n).toNat = n := Nat.mod_eq_of_lt (List.mem_range.mp hn)
    rw [List.mem_append]
    cases hrow : findRow n opcodeRows with
    | some f => exact .inl (List.mem_map_of_mem (f := Prod.fst) (mem_of_findRow hrow))
    | none =>
      have hmem := mem_unassignedOpcodes_of_findRow (BitVec.ofNat 8 n) (by rw [htoNat, hrow]; rfl)
      exact .inr (htoNat ▸ List.mem_map_of_mem hmem)

/-- No opcode has two rows, and no row is of an unassigned byte. -/
theorem opcodes_nodup_disjoint : (opcodeRows.map (·.1)).Nodup ∧
    (opcodeRows.map (·.1)).Disjoint (unassignedOpcodes.map BitVec.toNat) := by
  have h := range_perm_opcodes.nodup_iff.mp List.nodup_range
  exact ⟨h.of_append_left, List.disjoint_of_nodup_append h⟩

/-- R66: the unassigned bytes are exactly those without a row. -/
theorem opcodeLength_eq_none_iff (op : Byte) : opcodeLength op = none ↔ op ∈ unassignedOpcodes := by
  rw [opcodeLength, Option.map_eq_none_iff]
  refine ⟨fun h => mem_unassignedOpcodes_of_findRow op (by rw [h]; rfl), fun hmem => ?_⟩
  cases hrow : findRow op.toNat opcodeRows with
  | none => rfl
  | some f =>
    obtain ⟨-, hdisjoint⟩ := opcodes_nodup_disjoint
    exact (hdisjoint (List.mem_map_of_mem (f := Prod.fst) (mem_of_findRow hrow))
      (List.mem_map_of_mem hmem)).elim

/-! ## Rows and instructions -/

/-- With no opcode twice, each row is the one that is found by its opcode. -/
theorem findRow_of_mem {op : Nat} {f : RowFormat} {l : List (Nat × RowFormat)}
    (hnodup : (l.map (·.1)).Nodup) (hmem : (op, f) ∈ l) : findRow op l = some f := by
  induction l with
  | nil => cases hmem
  | cons r l ih =>
    rw [List.map_cons, List.nodup_cons] at hnodup
    obtain ⟨hnotMem, hnodup⟩ := hnodup
    rcases List.mem_cons.mp hmem with rfl | hmem
    · exact if_pos rfl
    · have hne : op ≠ r.1 := fun h => hnotMem (h ▸ List.mem_map_of_mem (f := Prod.fst) hmem)
      exact (if_neg hne).trans (ih hnodup hmem)

/-- The instruction is the one the format makes of some operand byte or word. -/
def RowFormat.Makes : RowFormat → Instr → Prop
  | .none j, i => j = i
  | .byte f, i => ∃ b, f b = i
  | .word f, i => ∃ w, f w = i

/-- Every instruction is made by the row of its opcode: the rows of R65 stand in the order of the
constructors. -/
theorem exists_row (i : Instr) :
    ∃ f, opcodeRows[i.ctorIdx]? = some (i.opcode.toNat, f) ∧ f.Makes i := by
  cases i with
  | tax | tay | tsx | txa | txs | tya | pha | php | pla | plp | dex | dey | inx | iny
  | aslAcc | lsrAcc | rolAcc | rorAcc | rts | clc | cld | cli | clv | sec | sed | sei
  | brk | nop | rti => exact ⟨_, rfl, rfl⟩
  | ldaAbs w | ldaAbsX w | ldaAbsY w | ldxAbs w | ldxAbsY w | ldyAbs w | ldyAbsX w
  | staAbs w | staAbsX w | staAbsY w | stxAbs w | styAbs w
  | andAbs w | andAbsX w | andAbsY w | eorAbs w | eorAbsX w | eorAbsY w
  | oraAbs w | oraAbsX w | oraAbsY w | bitAbs w
  | adcAbs w | adcAbsX w | adcAbsY w | sbcAbs w | sbcAbsX w | sbcAbsY w
  | cmpAbs w | cmpAbsX w | cmpAbsY w | cpxAbs w | cpyAbs w
  | decAbs w | decAbsX w | incAbs w | incAbsX w
  | aslAbs w | aslAbsX w | lsrAbs w | lsrAbsX w | rolAbs w | rolAbsX w | rorAbs w | rorAbsX w
  | jmpAbs w | jmpInd w | jsr w => exact ⟨_, rfl, w, rfl⟩
  | _ b => exact ⟨_, rfl, b, rfl⟩

/-- R94: every constructor is of a mode that its mnemonic has. -/
theorem form_pairAssigned (i : Instr) : i.form.pairAssigned = true := by
  cases i <;> rfl

end Sys2Proof
end

section
/-! PROOFS. The family 30_encoding.md: decoding and encoding undo each other (O52, O53), the opcode map (O43, O54), and what a step fetches and runs (O42, O43, O56). -/

namespace Sys2Proof

variable {i : Instr} {bytes rest : List Byte}

/-! ## Decode and encode (R60 to R63) -/

/-- A row of no operand byte decodes its opcode. -/
theorem decode_none {op : Byte} (h : findRow op.toNat opcodeRows = some (.none i))
    (rest : List Byte) : decode (op :: rest) = .ok (i, rest) := by
  simp only [decode, h]

/-- A row of one operand byte decodes that byte to the instruction with it. -/
theorem decode_byte {op : Byte} {f : Byte → Instr} (h : findRow op.toNat opcodeRows = some (.byte f))
    (b : Byte) (rest : List Byte) : decode (op :: b :: rest) = .ok (f b, rest) := by
  simp only [decode, h]

theorem decode_encode (i : Instr) (rest : List Byte) :
    decode (encode i ++ rest) = .ok (i, rest) := by
  obtain ⟨f, hrow, hmakes⟩ := exists_row i
  have hmem : (i.opcode.toNat, f) ∈ opcodeRows := List.mem_of_getElem? hrow
  have hfind := findRow_of_mem opcodes_nodup_disjoint.left hmem
  have hencodes := rowEncodes hmem
  cases f with
  | none j =>
    obtain rfl : j = i := hmakes
    obtain ⟨-, hoperand⟩ := hencodes
    rw [encode, hoperand]
    exact decode_none hfind rest
  | byte f =>
    obtain ⟨b, rfl⟩ := hmakes
    obtain ⟨-, hoperand⟩ := hencodes b
    rw [encode, hoperand]
    exact decode_byte hfind b rest
  | word f =>
    obtain ⟨w, rfl⟩ := hmakes
    obtain ⟨-, hoperand⟩ := hencodes w
    rw [encode, hoperand]
    exact decode_word hfind w rest

/-- Settles O52: the row of the instruction is the one its opcode finds. -/
theorem decodeInvertsEncode : Obligations.DecodeInvertsEncode :=
  decode_encode

/-- Bytes that decode are the encoding of what they decode to, and what is left. -/
theorem encode_append_of_decode (h : decode bytes = .ok (i, rest)) : encode i ++ rest = bytes := by
  cases bytes with
  | nil => cases h
  | cons op operand =>
    unfold decode at h
    simp only at h
    split at h
    case h_1 => cases h
    case h_2 hrow =>
      cases h
      obtain ⟨hop, hoperand⟩ := rowEncodes (mem_of_findRow hrow)
      rw [encode, hoperand, BitVec.eq_of_toNat_eq hop]
      rfl
    case h_3 b1 _ hrow =>
      cases h
      obtain ⟨hop, hoperand⟩ := rowEncodes (mem_of_findRow hrow) b1
      rw [encode, hoperand, BitVec.eq_of_toNat_eq hop]
      rfl
    case h_4 b1 b2 _ hrow =>
      cases h
      obtain ⟨hop, hoperand⟩ := rowEncodes (mem_of_findRow hrow) (joinBytes b2 b1)
      rw [encode, hoperand, BitVec.eq_of_toNat_eq hop, lowByte_joinBytes, highByte_joinBytes]
      rfl
    case h_5 => cases h

/-- Every instruction has the shape of Laws/Shapes: its opcode has its length because its encoding
decodes. -/
theorem instr_shape (i : Instr) : Laws.Shape.Statement i := by
  have hdecode : decode (i.opcode :: i.operand.operandBytes) = .ok (i, []) := by
    simpa [encode] using decode_encode i []
  refine Laws.shape_of i (form_pairAssigned i) ?_
  rw [Machine.opcodeLength_of_decode hdecode, ← Laws.encode_length i]
  rfl

/-- Settles O53. -/
theorem encodeInvertsDecode : Obligations.EncodeInvertsDecode := by
  intro bytes rest i h
  have hbytes := encode_append_of_decode h
  obtain ⟨hwf, hlength, -⟩ := instr_shape i
  exact ⟨hbytes, by rw [← hbytes, List.length_append, hlength], hwf⟩

/-- Settles O54: the counts and the words by evaluation. -/
theorem opcodeMapMatchesTheCheckValues : Obligations.OpcodeMapMatchesTheCheckValues :=
  ⟨⟨rfl, opcodes_nodup_disjoint.left, rfl, rfl, rfl⟩, rfl, rfl, rfl, rfl, rfl, rfl, rfl, rfl, rfl, rfl⟩

end Sys2Proof

namespace Sys2Proof.Machine

variable {i : Instr} {s s0 t : State}

/-! ## The step (R64, R66) -/

/-- With no event a step that fails to fetch ends in the fetch's fault. -/
theorem step_of_fetch_error {f : Fault} (hresb : s.lines.resb = .high)
    (hpoll : interruptPoll s.lines.irqbLow (sampleLines s) = (none, s0))
    (hfetch : fetch s0 = .error f) : step s = .fault f := by
  simp only [step, hresb, hpoll, hfetch]

/-- What a step makes of the result of its instruction: `i_poll` is set, and a stop is passed on. -/
def afterExec (i : Instr) (iBefore : Bool) (r : Result) : Result :=
  match r with
  | .next t => .next (afterInstr i iBefore t)
  | stop => stop

/-- With no event a step runs the instruction it fetches. -/
theorem step_of_fetch_ok (hresb : s.lines.resb = .high)
    (hpoll : interruptPoll s.lines.irqbLow (sampleLines s) = (none, s0))
    (hfetch : fetch s0 = .ok (i, t)) :
    step s = afterExec i t.p.i (exec i t) := by
  simp only [step, hresb, hpoll, hfetch]
  cases exec i t <;> rfl

/-- A poll that accepts nothing has changed at most the number of free values drawn. -/
theorem eq_of_interruptPoll_sampleLines {b : Bool} {o : Option Event}
    (h : interruptPoll b (sampleLines s) = (o, s0)) :
    s0 = { sampleLines s with draws := s0.draws } := by
  have hs0 := interruptPoll_snd_eq (sampleLines s) b
  rwa [h] at hs0

/-- Settles O42: the bytes at pc are fetched as i, since neither the boundary nor the poll has changed
pc, the map or memory. -/
theorem stepRunsTheDecodedInstruction : Obligations.StepRunsTheDecodedInstruction := by
  rintro s s0 i bytes hresb hpoll rfl hplain hdec -
  have hs0 := eq_of_interruptPoll_sampleLines hpoll
  have hfetch : fetch s0 = .ok (i, s0.setPc (s.pc + BitVec.ofNat 16 i.length)) := by
    rw [hs0]
    exact fetch_of_decode_plain hplain hdec
  have hp : s0.p = s.p := by rw [hs0]; rfl
  have hstep := step_of_fetch_ok hresb hpoll hfetch
  rw [State.setPc_p, hp] at hstep
  exact hstep

/-- An opcode byte without a row is fetched as the fault of R66. -/
theorem fetch_of_opcodeLength_none (h : opcodeLength (s.peek s.pc) = none) :
    fetch s = .error (.illegalOpcode (s.peek s.pc) s.pc) := by
  simp only [fetch, memRead_fst, h]

/-- Settles O43. -/
theorem unassignedOpcodesFault : Obligations.UnassignedOpcodesFault := by
  refine ⟨opcodeLength_eq_none_iff, fun s s0 hresb hpoll hop => ?_⟩
  have hpc : s0.pc = s.pc := by rw [eq_of_interruptPoll_sampleLines hpoll]; rfl
  rw [← hpc] at hop ⊢
  exact step_of_fetch_error hresb hpoll (fetch_of_opcodeLength_none hop)

/-! ## An instruction placed at pc (R61, R64) -/

/-- Different offsets below 65536 are different addresses. -/
theorem add_ofNat_ne {a : Addr} {j k : Nat} (hj : j < 65536) (hk : k < 65536) (hne : j ≠ k) :
    a + BitVec.ofNat 16 j ≠ a + BitVec.ofNat 16 k := by
  intro h
  have hmod := congrArg BitVec.toNat (add_left_cancel h)
  simp only [BitVec.toNat_ofNat] at hmod
  omega

theorem add_one_add_ofNat (a : Addr) (k : Nat) :
    a + 1#16 + BitVec.ofNat 16 k = a + BitVec.ofNat 16 (k + 1) := by
  rw [Nat.add_comm k 1, BitVec.ofNat_add, BitVec.add_assoc]

theorem read_placeBytes_other {bytes : List Byte} {a b : Addr} (m : Memory)
    (h : ∀ k < bytes.length, b ≠ a + BitVec.ofNat 16 k) :
    (placeBytes bytes a m).read b.toNat = m.read b.toNat := by
  induction bytes generalizing a m with
  | nil => rfl
  | cons v bytes ih =>
    have hba : b ≠ a := by simpa using h 0 (Nat.succ_pos _)
    rw [placeBytes, ih _ fun k hk => add_one_add_ofNat a k ▸ h (k + 1) (Nat.succ_lt_succ hk)]
    exact Memory.read_write_other m v (toNat_ne_of_ne hba)

/-- Placed bytes are read back, where there are no more of them than addresses. -/
theorem read_placeBytes {bytes : List Byte} {k : Nat} (a : Addr) (m : Memory)
    (hlength : bytes.length ≤ 65536) (hk : k < bytes.length) :
    (placeBytes bytes a m).read (a + BitVec.ofNat 16 k).toNat = bytes[k] := by
  induction bytes generalizing a m k with
  | nil => cases hk
  | cons v bytes ih =>
    rw [List.length_cons] at hlength hk
    cases k with
    | zero =>
      have hlater : ∀ j < bytes.length, a + BitVec.ofNat 16 0 ≠ a + 1#16 + BitVec.ofNat 16 j := by
        intro j hj
        rw [add_one_add_ofNat]
        exact add_ofNat_ne (by omega) (by omega) (by omega)
      rw [placeBytes, read_placeBytes_other _ hlater]
      simp
    | succ k =>
      rw [placeBytes, ← add_one_add_ofNat a k]
      exact ih (a + 1#16) _ (by omega) (Nat.lt_of_succ_lt_succ hk)

/-- An address among those made ram by one-byte regions before all others is ram. -/
theorem kindIn_ramCells {addrs : List Addr} {b : Addr} (regions : List Config.Region)
    (h : b ∈ addrs) :
    kindIn (addrs.map (fun a => { base := a.toNat, size := 1, kind := .ram }) ++ regions) b.toNat =
      .ram := by
  induction addrs with
  | nil => cases h
  | cons a addrs ih =>
    rw [List.map_cons, List.cons_append, kindIn]
    split
    case isTrue => rfl
    case isFalse hout =>
      rcases List.mem_cons.mp h with rfl | h
      · exact absurd ⟨Nat.le_refl _, Nat.lt_succ_self _⟩ hout
      · exact ih h

/-- The three bytes at pc are ram or rom by the regions that `withFetchWord` gives the platform. -/
theorem kindIn_fetchableRegions {k : Nat} (s : State) (hk : k < 3) :
    kindIn (fetchableRegions s) (s.pc + BitVec.ofNat 16 k).toNat = .ram ∨
      kindIn (fetchableRegions s) (s.pc + BitVec.ofNat 16 k).toNat = .rom := by
  have hmem : s.pc + BitVec.ofNat 16 k ∈ [s.pc, s.pc + 1#16, s.pc + 2#16] := by
    interval_cases k <;> simp
  unfold fetchableRegions
  simp only
  split
  case isTrue hplain =>
    have hplain := List.all_eq_true.mp hplain _ hmem
    rw [Bool.or_eq_true, decide_eq_true_eq, decide_eq_true_eq] at hplain
    exact hplain
  case isFalse => exact .inl (kindIn_ramCells _ hmem)

theorem quietNextBoundary_lines (s : State) : (quietNextBoundary s).lines = quietLines := by
  unfold quietNextBoundary State.lines
  cases s.schedule <;> rfl

/-- At a boundary made quiet the poll accepts nothing. -/
theorem interruptPoll_quietNextBoundary (s : State) :
    interruptPoll (quietNextBoundary s).lines.irqbLow (sampleLines (quietNextBoundary s)) =
      (none, sampleLines (quietNextBoundary s)) := by
  rw [quietNextBoundary_lines]
  refine interruptPoll_quiet _ ?_
  rw [sampleLines, quietNextBoundary_lines]
  rfl

/-- Of bytes that decode, those of the instruction alone decode to it. -/
theorem decode_take {bytes rest : List Byte} (h : decode bytes = .ok (i, rest)) :
    decode (bytes.take i.length) = .ok (i, []) ∧ i.length ≤ bytes.length := by
  have hbytes := encode_append_of_decode h
  have hlength := Laws.encode_length i
  rw [← hbytes, List.take_left' hlength, List.length_append, hlength]
  exact ⟨by simpa using decode_encode i [], Nat.le_add_right _ _⟩

theorem tableBytes_length (nbits w : Nat) : (tableBytes nbits w).length = 3 := rfl

/-- The state after the quiet boundary that `withFetchWord` makes fetches the placed instruction. -/
theorem fetch_withFetchWord {nbits w : Nat} {rest : List Byte} (s : State)
    (h : decode (tableBytes nbits w) = .ok (i, rest)) :
    fetch (sampleLines (s.withFetchWord nbits w)) =
      .ok (i, (sampleLines (s.withFetchWord nbits w)).setPc (s.pc + BitVec.ofNat 16 i.length)) := by
  obtain ⟨hdec, hlength⟩ := decode_take h
  refine fetch_of_decode_plain
    (fun k hk => kindIn_fetchableRegions s (Nat.lt_of_lt_of_le hk hlength)) ?placed
  case placed =>
    rw [← hdec]
    congr 1
    refine List.ext_getElem (by simpa using hlength) fun k hk hk' => ?_
    rw [List.getElem_map, List.getElem_range, List.getElem_take]
    rw [List.length_map, List.length_range] at hk
    exact read_placeBytes s.pc s.mem (by simp [tableBytes_length]) (Nat.lt_of_lt_of_le hk hlength)

theorem decodeTableWord_eq_some {nbits w : Nat} (h : decodeTableWord nbits w = some i) :
    ∃ rest, decode (tableBytes nbits w) = .ok (i, rest) := by
  unfold decodeTableWord at h
  split at h
  case h_1 rest hdec => cases h; exact ⟨rest, hdec⟩
  case h_2 => cases h

/-- Settles O56. -/
theorem fetchWindowRunsThePlacedInstruction : Obligations.FetchWindowRunsThePlacedInstruction := by
  intro s i nbits w h
  obtain ⟨rest, hdec⟩ := decodeTableWord_eq_some h
  refine ⟨_, rfl, ?resb, interruptPoll_quietNextBoundary _, fetch_withFetchWord s hdec⟩
  case resb => rw [State.withFetchWord, quietNextBoundary_lines]; rfl

end Sys2Proof.Machine
end

section
/-! PROOFS. The family 40_addressing_modes.md: the effective addresses of the direct modes (O35) and of the pointer modes (O36) in plain arithmetic, and the order in which the pointer modes and JMP (addr) read (O37). -/

namespace Sys2Proof

/-! ## Words from bytes in plain arithmetic (R5) -/

@[simp] theorem zeroExtend16_toNat (b : Byte) : (zeroExtend16 b).toNat = b.toNat := by
  rw [zeroExtend16, BitVec.toNat_ofNat, Nat.mod_eq_of_lt (b.isLt.trans (by decide))]

@[simp] theorem joinBytes_toNat (h l : Byte) : (joinBytes h l).toNat = h.toNat * 256 + l.toNat := by
  have := h.isLt
  have := l.isLt
  rw [joinBytes, BitVec.toNat_ofNat, Nat.mod_eq_of_lt (by omega)]

/-- An index added to a zero-page byte wraps in page zero (R85, R86). -/
theorem zeroExtend16_add_toNat (z b : Byte) :
    (zeroExtend16 (z + b)).toNat = (z.toNat + b.toNat) % 256 := by
  rw [zeroExtend16_toNat, BitVec.toNat_add]

/-- An index added to a word carries into the high byte and wraps in memory (R88, R89, R92). -/
theorem add_zeroExtend16_toNat (w : Addr) (b : Byte) :
    (w + zeroExtend16 b).toNat = (w.toNat + b.toNat) % 65536 := by
  rw [BitVec.toNat_add, zeroExtend16_toNat]

theorem eq_zeroExtend16_iff {p : Addr} {b : Byte} : p = zeroExtend16 b ↔ p.toNat = b.toNat := by
  rw [BitVec.toNat_eq, zeroExtend16_toNat]

end Sys2Proof

namespace Sys2Proof.Machine

/-! ## The direct modes (R84 to R89) -/

/-- Settles O35: the address of each mode by its sum, and the state by the definition of the mode. -/
theorem effectiveAddressesOfDirectModes : Obligations.EffectiveAddressesOfDirectModes :=
  ⟨fun z _ => ⟨zeroExtend16_toNat z, rfl⟩,
    fun z s => ⟨zeroExtend16_add_toNat z s.x, rfl⟩,
    fun z s => ⟨zeroExtend16_add_toNat z s.y, rfl⟩,
    fun _ _ => rfl,
    fun w s => ⟨add_zeroExtend16_toNat w s.x, rfl⟩,
    fun w s => ⟨add_zeroExtend16_toNat w s.y, rfl⟩⟩

/-! ## The pointer modes (R91, R92) -/

variable {s : State} {p q : Addr}

/-- A pointer held in plain bytes of page zero, the step to its high byte modulo 256 (R7). -/
theorem read16ZeroPage_plain {z : Byte} (hp : p.toNat = z.toNat) (hq : q.toNat = (z.toNat + 1) % 256)
    (hpp : s.Plain p) (hqp : s.Plain q) :
    read16ZeroPage z s = (joinBytes (s.byteAt q) (s.byteAt p), s) := by
  obtain rfl : p = zeroExtend16 z := eq_zeroExtend16_iff.mpr hp
  obtain rfl : q = zeroExtend16 (z + 1#8) := eq_zeroExtend16_iff.mpr hq
  exact readPair_plain s hpp hqp

/-- R91: the pointer of `(addr,X)` stands at the sum of its byte and X in page zero. -/
theorem effAddr_indX_plain {z : Byte} (hp : p.toNat = (z.toNat + s.x.toNat) % 256)
    (hq : q.toNat = (z.toNat + s.x.toNat + 1) % 256) (hpp : s.Plain p) (hqp : s.Plain q) :
    effAddr (.indX z) s = (joinBytes (s.byteAt q) (s.byteAt p), s) := by
  refine read16ZeroPage_plain (by rw [hp, BitVec.toNat_add]) ?high hpp hqp
  case high => rw [hq, BitVec.toNat_add, Nat.mod_add_mod]

/-- R92: the pointer of `(addr),Y` stands at its byte in page zero, and Y is added to the word there. -/
theorem effAddr_indY_plain {z : Byte} (hp : p.toNat = z.toNat) (hq : q.toNat = (z.toNat + 1) % 256)
    (hpp : s.Plain p) (hqp : s.Plain q) :
    effAddr (.indY z) s = (joinBytes (s.byteAt q) (s.byteAt p) + zeroExtend16 s.y, s) := by
  simp only [effAddr, read16ZeroPage_plain hp hq hpp hqp]

/-- Settles O36, from the pointer each mode reads. -/
theorem effectiveAddressesThroughZeroPagePointers :
    Obligations.EffectiveAddressesThroughZeroPagePointers := by
  refine ⟨fun z s p q hp hq hpp hqp => ?indX, fun z s p q hp hq hpp hqp => ?indY⟩
  case indX =>
    rw [effAddr_indX_plain hp hq hpp hqp]
    exact ⟨joinBytes_toNat _ _, rfl⟩
  case indY =>
    rw [effAddr_indY_plain hp hq hpp hqp]
    exact ⟨by rw [add_zeroExtend16_toNat, joinBytes_toNat], rfl⟩

/-! ## The order of the reads (R95)

Each read is given the state the one before it left, whatever stands at the two addresses. -/

/-- A pair of bytes is read at the low address first (R7). -/
theorem readPair_eq (low high : Addr) (s : State) :
    readPair low high s =
      (joinBytes ((s.touch low).peek high) (s.peek low), (s.touch low).touch high) := rfl

/-- The datum is read after the pointer (R80). -/
theorem readOperand_mem (m : MemMode) (s : State) :
    readOperand (.mem m) s = memRead (effAddr m s).1 (effAddr m s).2 := rfl

theorem effAddr_indX (z : Byte) (s : State) :
    effAddr (.indX z) s = readPair (zeroExtend16 (z + s.x)) (zeroExtend16 (z + s.x + 1#8)) s := rfl

theorem effAddr_indY (z : Byte) (s : State) :
    effAddr (.indY z) s =
      ((readPair (zeroExtend16 z) (zeroExtend16 (z + 1#8)) s).1 + zeroExtend16 s.y,
        (readPair (zeroExtend16 z) (zeroExtend16 (z + 1#8)) s).2) := rfl

/-- R90: `JMP (addr)` goes to the pair at its word, the second byte from the page of the first. -/
theorem exec_jmpInd (w : Addr) (s : State) :
    exec (.jmpInd w) s =
      .next ((readPair w (joinBytes (highByte w) (lowByte w + 1#8)) s).2.setPc
        (readPair w (joinBytes (highByte w) (lowByte w + 1#8)) s).1) := rfl

/-- Settles O37: each mode reads a pair of bytes, and the operand modes then the datum. -/
theorem pointerModesReadInOrder : Obligations.PointerModesReadInOrder := by
  refine ⟨?indX, ?indY, ?jmpInd⟩
  case indX =>
    rintro z s s1 s2 p q ea rfl rfl rfl rfl rfl
    rw [readOperand_mem, effAddr_indX, readPair_eq, memRead]
  case indY =>
    rintro z s s1 s2 p q ea rfl rfl rfl rfl rfl
    rw [readOperand_mem, effAddr_indY, readPair_eq, memRead]
  case jmpInd =>
    rintro w q s s1 s2 rfl rfl rfl
    rw [exec_jmpInd, readPair_eq]

end Sys2Proof.Machine
end

section
/-! PROOFS. The rows of a mnemonic (R65, R94): what stands in the opcode table as one list, by which the rows that a statement lists for a mnemonic are checked. -/

namespace Sys2Proof

/-- The row of the opcode table an instruction stands in: its mnemonic, opcode and mode. -/
def Instr.tableRow (i : Instr) : Mnemonic × Byte × ModeId :=
  (i.mnemonic, i.opcode, i.operand.modeId)

/-- One instruction of a format: the one whose operand is zero. -/
def RowFormat.sample : RowFormat → Instr
  | .none i => i
  | .byte f => f 0x00#8
  | .word f => f 0x0000#16

/-- The rows of the opcode table, one for each opcode of the map, in its order. -/
def tableRows : List (Mnemonic × Byte × ModeId) :=
  opcodeRows.map fun r => r.2.sample.tableRow

/-- No operand decides the row of an instruction, and the rows stand in the order of the
constructors. -/
theorem tableRows_getElem?_ctorIdx (i : Instr) : tableRows[i.ctorIdx]? = some i.tableRow := by
  cases i <;> rfl

theorem mem_tableRows_iff {r : Mnemonic × Byte × ModeId} :
    r ∈ tableRows ↔ ∃ i : Instr, i.tableRow = r := by
  constructor
  · intro h
    obtain ⟨row, -, hrow⟩ := List.mem_map.mp h
    exact ⟨row.2.sample, hrow⟩
  · rintro ⟨i, rfl⟩
    exact List.mem_of_getElem? (tableRows_getElem?_ctorIdx i)

/-- No opcode stands in two rows, so an opcode has one place in the map. -/
theorem ctorIdx_eq_of_opcode_eq {i j : Instr} (h : i.opcode = j.opcode) :
    i.ctorIdx = j.ctorIdx := by
  obtain ⟨f, hi, -⟩ := exists_row i
  obtain ⟨g, hj, -⟩ := exists_row j
  obtain ⟨hlt, -⟩ := List.getElem?_eq_some_iff.mp hi
  refine (List.getElem?_inj (by simpa using hlt) opcodes_nodup_disjoint.left).mp ?_
  simp only [List.getElem?_map, hi, hj, h, Option.map_some]

theorem tableRow_eq_of_opcode_eq {i j : Instr} (h : i.opcode = j.opcode) :
    i.tableRow = j.tableRow := by
  have hi := tableRows_getElem?_ctorIdx i
  rw [ctorIdx_eq_of_opcode_eq h, tableRows_getElem?_ctorIdx j] at hi
  exact (Option.some.inj hi).symm

/-- The rows of a mnemonic, read off the table. -/
def Mnemonic.rows (m : Mnemonic) : List (Byte × ModeId) :=
  (tableRows.filter fun r => r.1 = m).map (·.2)

theorem Mnemonic.mem_rows_iff {m : Mnemonic} {r : Byte × ModeId} :
    r ∈ m.rows ↔ (m, r) ∈ tableRows := by
  simp [Mnemonic.rows]

/-- A mnemonic has the rows read off the table, so a list of rows written out is checked by
evaluating them. -/
theorem Machine.hasRows_rows (m : Mnemonic) : Machine.HasRows m m.rows := by
  intro i
  rw [Mnemonic.mem_rows_iff, mem_tableRows_iff]
  constructor
  · rintro rfl
    exact ⟨i, rfl⟩
  · rintro ⟨j, hj⟩
    have hopcode : j.opcode = i.opcode := congrArg (·.2.1) hj
    calc
      i.mnemonic = j.mnemonic := congrArg Prod.fst (tableRow_eq_of_opcode_eq hopcode).symm
      _ = m := congrArg Prod.fst hj

end Sys2Proof
end

section
/-! PROOFS. The family 41_load_store.md: what the loads (O1) and the stores (O2) do, and their rows. -/

namespace Sys2Proof.Machine

/-! ## Loads (R101 to R103)

Each equation is the meaning of the load with the state after the read written out. -/

theorem lda_eq (o : Src) (s : State) :
    lda o s = .next
      { s with
        a := (readOperand o s).1, p := s.p.withNZ (readOperand o s).1
        draws := (readOperand o s).2.draws, device := (readOperand o s).2.device } :=
  congrArg (β := Result)
    (fun t : State => .next ((t.setA (readOperand o s).1).setNZ (readOperand o s).1))
    (readOperand_snd_eq s o)

theorem ldx_eq (o : Src) (s : State) :
    ldx o s = .next
      { s with
        x := (readOperand o s).1, p := s.p.withNZ (readOperand o s).1
        draws := (readOperand o s).2.draws, device := (readOperand o s).2.device } :=
  congrArg (β := Result)
    (fun t : State => .next ((t.setX (readOperand o s).1).setNZ (readOperand o s).1))
    (readOperand_snd_eq s o)

theorem ldy_eq (o : Src) (s : State) :
    ldy o s = .next
      { s with
        y := (readOperand o s).1, p := s.p.withNZ (readOperand o s).1
        draws := (readOperand o s).2.draws, device := (readOperand o s).2.device } :=
  congrArg (β := Result)
    (fun t : State => .next ((t.setY (readOperand o s).1).setNZ (readOperand o s).1))
    (readOperand_snd_eq s o)

/-- Settles O1: the rows by the table, and each load by the meaning its mnemonic runs. -/
theorem loadsPutTheOperandInOneRegister : Obligations.LoadsPutTheOperandInOneRegister := by
  refine ⟨hasRows_rows .LDA, hasRows_rows .LDX, hasRows_rows .LDY,
    fun i s hlda => ?lda, fun i s hldx => ?ldx, fun i s hldy => ?ldy⟩
  case lda =>
    obtain ⟨o, ho, hexec⟩ := exec_lda hlda s
    exact ⟨o, ho, hexec.trans (lda_eq o s)⟩
  case ldx =>
    obtain ⟨o, ho, hexec⟩ := exec_ldx hldx s
    exact ⟨o, ho, hexec.trans (ldx_eq o s)⟩
  case ldy =>
    obtain ⟨o, ho, hexec⟩ := exec_ldy hldy s
    exact ⟨o, ho, hexec.trans (ldy_eq o s)⟩

/-! ## Stores (R104 to R106) -/

/-- A store changes memory, the record of writes outside ram, what its pointer reads draw, and the
devices' state; `storeOperand_wroteByte` says what it does to the first two. -/
theorem storeOperand_eq (m : MemMode) (v : Byte) (s : State) :
    storeOperand m v s =
      { s with
        mem := (storeOperand m v s).mem, events := (storeOperand m v s).events
        draws := (effAddr m s).2.draws
        device := (effAddr m s).2.deviceAfter (effAddr m s).1 v } := by
  rw [State.mk.injEq]; simp

/-- Settles O2: the rows by the table, and each store by the meaning its mnemonic runs, which writes
its register at the effective address. -/
theorem storesWriteOneByteAtTheEffectiveAddress :
    Obligations.StoresWriteOneByteAtTheEffectiveAddress := by
  refine ⟨hasRows_rows .STA, hasRows_rows .STX, hasRows_rows .STY,
    fun i s hsta => ?sta, fun i s hstx => ?stx, fun i s hsty => ?sty⟩
  case sta =>
    obtain ⟨m, hm, hexec⟩ := exec_sta hsta s
    exact ⟨m, _, hm, hexec, storeOperand_eq m s.a s, storeOperand_wroteByte s m s.a⟩
  case stx =>
    obtain ⟨m, hm, hexec⟩ := exec_stx hstx s
    exact ⟨m, _, hm, hexec, storeOperand_eq m s.x s, storeOperand_wroteByte s m s.x⟩
  case sty =>
    obtain ⟨m, hm, hexec⟩ := exec_sty hsty s
    exact ⟨m, _, hm, hexec, storeOperand_eq m s.y s, storeOperand_wroteByte s m s.y⟩

end Sys2Proof.Machine
end

section
/-! PROOFS. The family 42_transfer_stack.md: what the transfers (O3), the pushes (O4) and the pulls (O5) do, and their rows. -/

namespace Sys2Proof.Machine

/-! ## Transfers (R111 to R116) -/

/-- Settles O3: the rows by the table, and each transfer by the meaning its mnemonic runs: the named
updates of that meaning are the statement's fields by definition. -/
theorem transfersCopyARegister : Obligations.TransfersCopyARegister := by
  refine ⟨hasRows_rows .TAX, hasRows_rows .TAY, hasRows_rows .TSX, hasRows_rows .TXA,
    hasRows_rows .TXS, hasRows_rows .TYA, ?tax, ?tay, ?tsx, ?txa, ?txs, ?tya⟩
  case tax => exact exec_tax rfl
  case tay => exact exec_tay rfl
  case tsx => exact exec_tsx rfl
  case txa => exact exec_txa rfl
  case txs => exact exec_txs rfl
  case tya => exact exec_tya rfl

/-! ## Pushes (R117, R118) -/

/-- A push changes memory, the record of writes outside ram, S, and the devices' state;
`push8_wroteByte` says what it does to the first two. -/
theorem push8_eq (v : Byte) (s : State) :
    push8 v s =
      { s with
        mem := (push8 v s).mem, events := (push8 v s).events, sp := s.sp - 1#8
        device := s.deviceAfter (stackAddr s.sp) v } := by
  rw [State.mk.injEq]; simp

/-- The byte PHP pushes: bit 5, which is always set, and B, which PHP sets, are the `0x30` of R118. -/
theorem packP_true (p : Flags) :
    packP true p =
      BitVec.ofNat 8 (bit p.n * 128 + bit p.v * 64 + 0x30 + bit p.d * 8 + bit p.i * 4 +
        bit p.z * 2 + bit p.c) := by
  rw [packP, Nat.add_assoc _ 32]; rfl

/-- Settles O4: the rows by the table, and each instruction by the meaning its mnemonic runs, one push
of A or of the packed P. -/
theorem pushesWriteAtTheStackPointer : Obligations.PushesWriteAtTheStackPointer := by
  refine ⟨hasRows_rows .PHA, hasRows_rows .PHP, fun s => ?pha, fun s => ?php⟩
  case pha => exact ⟨_, exec_pha rfl s, push8_eq s.a s, push8_wroteByte s s.a⟩
  case php =>
    exact ⟨_, _, exec_php rfl s, packP_true s.p, push8_eq _ s, push8_wroteByte s _⟩

/-! ## Pulls (R119, R120) -/

/-- A pull reads at `0x0100 + (S + 1)`. S moves before the read (R8), but a read does not see S, so the
byte and what the read leaves are those of a read of `s` itself. -/
theorem pull8_eq (s : State) :
    pull8 s =
      (s.peek (stackAddr (s.sp + 1#8)),
        { s with
          sp := s.sp + 1#8
          draws := (s.touch (stackAddr (s.sp + 1#8))).draws
          device := (s.touch (stackAddr (s.sp + 1#8))).device }) := by
  refine Prod.ext rfl ?_
  calc (pull8 s).2
    _ = (s.touch (stackAddr (s.sp + 1#8))).setSp (s.sp + 1#8) := State.setSp_touch s _ _
    _ = _ := congrArg (State.setSp · (s.sp + 1#8)) (State.touch_eq s _)

/-- Settles O5: the rows by the table, and each instruction by the meaning its mnemonic runs, with its
pull written out by `pull8_eq`. -/
theorem pullsReadAboveTheStackPointer : Obligations.PullsReadAboveTheStackPointer := by
  refine ⟨hasRows_rows .PLA, hasRows_rows .PLP, fun s => ?pla, fun s v hv => ?plp⟩
  case pla =>
    rw [exec_pla_eq_next_iff, pull8_eq]; rfl
  case plp =>
    subst hv
    rw [exec_plp_eq_next_iff, pull8_eq]; rfl

end Sys2Proof.Machine
end

section
/-! PROOFS. The family 43_logical.md: what AND, EOR and ORA (O7) and BIT (O8) do, and their rows. -/

namespace Sys2Proof.Machine

/-! ## AND, EOR and ORA (R125 to R128) -/

/-- The shared meaning of the three instructions, with the state after the read written out; `f` is
the bitwise operation. -/
theorem logical_eq (f : Byte → Byte → Byte) (o : Src) (s : State) :
    logical f o s = .next
      { s with
        a := f s.a (readOperand o s).1, p := s.p.withNZ (f s.a (readOperand o s).1)
        draws := (readOperand o s).2.draws, device := (readOperand o s).2.device } :=
  let r := f s.a (readOperand o s).1
  congrArg (β := Result) (fun t : State => .next ((t.setA r).setNZ r)) (readOperand_snd_eq s o)

/-- Settles O7: the rows by the table, and each instruction by the shared meaning at its
operation. -/
theorem logicalInstructionsCombineAWithTheOperand :
    Obligations.LogicalInstructionsCombineAWithTheOperand := by
  refine ⟨hasRows_rows .AND, hasRows_rows .EOR, hasRows_rows .ORA,
    fun i s hand => ?and, fun i s heor => ?eor, fun i s hora => ?ora⟩
  case and =>
    obtain ⟨o, ho, hexec⟩ := exec_and hand s
    exact ⟨o, _, ho, rfl, hexec.trans (logical_eq _ o s)⟩
  case eor =>
    obtain ⟨o, ho, hexec⟩ := exec_eor heor s
    exact ⟨o, _, ho, rfl, hexec.trans (logical_eq _ o s)⟩
  case ora =>
    obtain ⟨o, ho, hexec⟩ := exec_ora hora s
    exact ⟨o, _, ho, rfl, hexec.trans (logical_eq _ o s)⟩

/-! ## BIT (R129) -/

/-- The meaning of BIT with the state after the read written out: of the registers only P is
written. -/
theorem bitTest_eq (o : Src) (s : State) :
    bitTest o s = .next
      { s with
        p := { s.p with
               z := decide (s.a &&& (readOperand o s).1 = 0x00#8)
               n := (readOperand o s).1.getLsbD 7, v := (readOperand o s).1.getLsbD 6 }
        draws := (readOperand o s).2.draws, device := (readOperand o s).2.device } :=
  congrArg (β := Result) (fun t : State => .next (t.setP _)) (readOperand_snd_eq s o)

/-- Settles O8: the rows by the table, and BIT by its meaning at its memory operand. -/
theorem bitTestsWithoutChangingA : Obligations.BitTestsWithoutChangingA := by
  refine ⟨hasRows_rows .BIT, fun i s hbit => ?_⟩
  obtain ⟨m, hm, hexec⟩ := exec_bit hbit s
  exact ⟨m, _, hm, rfl, hexec.trans (bitTest_eq (.mem m) s)⟩

end Sys2Proof.Machine
end

section
/-! PROOFS. The family 44_arithmetic.md: the binary adder and subtracter in plain arithmetic (R130), ADC (O9) and SBC (O10), their decimal algorithms (O11, O12), carry chains (O13), and the compares (O14). -/

namespace Sys2Proof.Machine

/-! ## Carry, sign and complement in plain arithmetic (R5, R130) -/

theorem bit_le_one (c : Bool) : bit c ≤ 1 := by
  rw [bit_eq_toNat]; exact c.toNat_le

theorem testBit_seven (k : Nat) : k.testBit 7 = decide (128 ≤ k % 256) := by
  rw [Nat.testBit_eq_decide_div_mod_eq, decide_eq_decide]; omega

theorem getLsbD_seven (b : Byte) : b.getLsbD 7 = decide (128 ≤ b.toNat) := by
  rw [BitVec.getLsbD, testBit_seven, Nat.mod_eq_of_lt b.isLt]

theorem toInt_eq_ite_sign (b : Byte) :
    b.toInt = if 128 ≤ b.toNat then (b.toNat : Int) - 256 else b.toNat := by
  rw [BitVec.toInt_eq_toNat_cond]; split <;> split <;> omega

theorem xor_ones_toNat (m : Byte) : (m ^^^ 0xFF#8).toNat = 255 - m.toNat := by
  rw [show (0xFF#8 : Byte) = BitVec.allOnes 8 from rfl, BitVec.xor_allOnes, BitVec.toNat_not]

/-- The mask by which R130 and R133 compute V: the operands have one sign and the sum the other. -/
theorem overflow_mask_iff (a m s : Nat) :
    (a ^^^ s) &&& (m ^^^ s) &&& 0x80 ≠ 0 ↔
      (128 ≤ a % 256 ↔ 128 ≤ m % 256) ∧ ¬(128 ≤ a % 256 ↔ 128 ≤ s % 256) := by
  have hbits : (a ^^^ s) &&& (m ^^^ s) &&& 0x80 ≠ 0 ↔
      a.testBit 7 ≠ s.testBit 7 ∧ m.testBit 7 ≠ s.testBit 7 := by
    rw [show 0x80 = 2 ^ 7 from rfl, Nat.and_two_pow, Nat.testBit_and, Nat.testBit_xor,
      Nat.testBit_xor]
    simp
  rw [hbits, testBit_seven, testBit_seven, testBit_seven, ne_eq, ne_eq, decide_eq_decide,
    decide_eq_decide]
  tauto

/-! ## The binary adder and subtracter (R130, R132) -/

theorem addBinary_value_toNat (a m : Byte) (c : Bool) :
    (addBinary a m c).value.toNat = (a.toNat + m.toNat + bit c) % 256 :=
  BitVec.toNat_ofNat _ 8

theorem addBinary_c (a m : Byte) (c : Bool) :
    (addBinary a m c).c = decide (a.toNat + m.toNat + bit c > 255) := rfl

/-- V reports the signed outcome: the sum of the signed values does not fit in a byte. -/
theorem addBinary_v (a m : Byte) (c : Bool) :
    (addBinary a m c).v =
      decide (a.toInt + m.toInt + (bit c : Nat) < -128 ∨
        127 < a.toInt + m.toInt + (bit c : Nat)) := by
  have hr := addBinary_value_toNat a m c
  have hmask : (addBinary a m c).v = true ↔
      (a.toNat ^^^ (addBinary a m c).value.toNat) &&&
        (m.toNat ^^^ (addBinary a m c).value.toNat) &&& 0x80 ≠ 0 := by
    rw [Ne, ← BitVec.toNat_xor, ← BitVec.toNat_xor, ← BitVec.toNat_and]
    exact decide_eq_true_iff.trans (BitVec.toNat_inj (y := 0x00#8)).symm.not
  rw [Bool.eq_iff_iff, hmask, overflow_mask_iff, hr, decide_eq_true_iff, toInt_eq_ite_sign,
    toInt_eq_ite_sign]
  have := a.isLt
  have := m.isLt
  have := bit_le_one c
  split <;> split <;> omega

theorem addBinary_eq (a m : Byte) (c : Bool) {r : Byte}
    (hr : r = BitVec.ofNat 8 (a.toNat + m.toNat + bit c)) :
    addBinary a m c =
      { value := r, n := r.getLsbD 7, z := decide (r = 0x00#8)
        c := decide (a.toNat + m.toNat + bit c > 255)
        v := decide (a.toInt + m.toInt + (bit c : Nat) < -128 ∨
               127 < a.toInt + m.toInt + (bit c : Nat)) } := by
  rw [← addBinary_v, hr]; rfl

/-- Adding the one's complement subtracts: the sum is 256 more than the difference `d`, so its carry
is the inverted borrow. -/
theorem subBinary_eq (a m : Byte) (c : Bool) {d : Int} {r : Byte}
    (hd : d = (a.toNat : Int) - (m.toNat : Int) - (1 - (bit c : Nat))) (hr : r = BitVec.ofInt 8 d) :
    subBinary a m c =
      { value := r, n := r.getLsbD 7, z := decide (r = 0x00#8), c := decide (0 ≤ d)
        v := decide (a.toInt - m.toInt - (1 - (bit c : Nat)) < -128 ∨
               127 < a.toInt - m.toInt - (1 - (bit c : Nat))) } := by
  have hm := m.isLt
  have hnot := xor_ones_toNat m
  have hsum : ((a.toNat + (m ^^^ 0xFF#8).toNat + bit c : Nat) : Int) = d + 256 := by omega
  have hvalue : r = BitVec.ofNat 8 (a.toNat + (m ^^^ 0xFF#8).toNat + bit c) := by
    rw [hr, ← BitVec.ofInt_natCast, hsum, BitVec.ofInt_add]; exact (BitVec.add_zero _).symm
  have hsigned : a.toInt + (m ^^^ 0xFF#8).toInt + (bit c : Nat) =
      a.toInt - m.toInt - (1 - (bit c : Nat)) := by
    rw [toInt_eq_ite_sign m, toInt_eq_ite_sign (m ^^^ 0xFF#8), hnot]
    split <;> split <;> omega
  have hcarry : a.toNat + (m ^^^ 0xFF#8).toNat + bit c > 255 ↔ 0 ≤ d := by omega
  rw [subBinary, addBinary_eq a _ c hvalue, hsigned, decide_eq_decide.mpr hcarry]

/-! ## ADC and SBC (R131, R132) -/

section
variable (binary decimal : Byte → Byte → Bool → AluResult) (o : Src) {s : State}

/-- The result goes into A, N, V, Z and C; of the read only the free values drawn are left. -/
theorem applyAlu_readOperand (r : AluResult) :
    (readOperand o s).2.applyAlu r =
      { s with
        a := r.value, p := s.p.withAlu r
        draws := (readOperand o s).2.draws, device := (readOperand o s).2.device } :=
  congrArg (State.applyAlu · r) (readOperand_snd_eq s o)

theorem addSub_of_binary (hd : s.p.d = false) :
    addSub binary decimal o s =
      .next ((readOperand o s).2.applyAlu (binary s.a (readOperand o s).1 s.p.c)) := by
  simp [addSub, hd]

theorem addSub_of_decimal (hd : s.p.d = true) (hpol : s.cfg.decimalPolicy = .nmosAlgorithm) :
    addSub binary decimal o s =
      .next ((readOperand o s).2.applyAlu (decimal s.a (readOperand o s).1 s.p.c)) := by
  simp [addSub, hd, hpol]

theorem addSub_of_refuse (hd : s.p.d = true) (hpol : s.cfg.decimalPolicy = .refuse) :
    addSub binary decimal o s = .refused .decimal := by
  simp [addSub, hd, hpol]

end

/-- Settles O9: the rows by the table, and ADC by the shared meaning in each of its three cases, the
binary one with the adder in plain arithmetic. -/
theorem adcAddsWithCarry : Obligations.AdcAddsWithCarry := by
  refine ⟨hasRows_rows .ADC, fun i s hadc => ?_⟩
  obtain ⟨o, ho, hexec⟩ := exec_adc hadc s
  rw [hexec, adc]
  refine ⟨o, _, _, ho, rfl, rfl, fun hd => ?binary, fun hd hpol => ?decimal, fun hd hpol => ?refuse⟩
  case binary =>
    rw [addSub_of_binary _ _ o hd, applyAlu_readOperand, addBinary_eq _ _ _ rfl]; rfl
  case decimal =>
    rw [addSub_of_decimal _ _ o hd hpol, applyAlu_readOperand]; rfl
  case refuse => exact addSub_of_refuse _ _ o hd hpol

/-- Settles O10: the rows by the table, and SBC by the shared meaning in each of its three cases,
the binary one with the subtracter in plain arithmetic. -/
theorem sbcSubtractsWithBorrow : Obligations.SbcSubtractsWithBorrow := by
  refine ⟨hasRows_rows .SBC, fun i s hsbc => ?_⟩
  obtain ⟨o, ho, hexec⟩ := exec_sbc hsbc s
  rw [hexec, sbc]
  refine ⟨o, _, _, _, ho, rfl, rfl, rfl,
    fun hd => ?binary, fun hd hpol => ?decimal, fun hd hpol => ?refuse⟩
  case binary =>
    rw [addSub_of_binary _ _ o hd, applyAlu_readOperand, subBinary_eq _ _ _ rfl rfl]; rfl
  case decimal =>
    rw [addSub_of_decimal _ _ o hd hpol, applyAlu_readOperand]; rfl
  case refuse => exact addSub_of_refuse _ _ o hd hpol

/-! ## Decimal addition (R133) -/

/-- The digits of a decimal addition: `lo` and `hi` are the sums of the low and of the high digits,
each with the carry into it, and `d` is the corrected low digit. -/
structure AdcDigits (a m : Byte) (c : Bool) (lo d hi : Nat) : Prop where
  lo_eq : lo = a.toNat % 16 + m.toNat % 16 + bit c
  d_eq : d = if 10 ≤ lo then (lo + 6) % 16 else lo
  hi_eq : hi = a.toNat / 16 + m.toNat / 16 + if 10 ≤ lo then 1 else 0

theorem exists_adcDigits (a m : Byte) (c : Bool) : ∃ lo d hi, AdcDigits a m c lo d hi :=
  ⟨_, _, _, rfl, rfl, rfl⟩

namespace AdcDigits

variable {a m : Byte} {c : Bool} {lo d hi : Nat}

theorem d_lt (h : AdcDigits a m c lo d hi) : d < 16 := by
  have hd := h.d_eq
  split at hd <;> omega

/-- The sum that the algorithm holds before the high digit is corrected. -/
theorem sum_eq (h : AdcDigits a m c lo d hi) :
    a.toNat / 16 * 16 + m.toNat / 16 * 16 + (if lo ≥ 10 then (lo + 6) % 16 + 16 else lo) =
      hi * 16 + d := by
  obtain ⟨-, hd, hhi⟩ := h
  by_cases hten : 10 ≤ lo
  · rw [if_pos hten] at hd hhi ⊢; omega
  · rw [if_neg hten] at hd hhi ⊢; omega

/-- N and V look at bit 3 of `hi`, before the correction of the high digit. -/
theorem adcDecimal_eq (h : AdcDigits a m c lo d hi) :
    adcDecimal a m c =
      { value := BitVec.ofNat 8 ((if 10 ≤ hi then hi + 6 else hi) * 16 + d)
        n := decide (8 ≤ hi % 16)
        v := decide ((128 ≤ a.toNat ↔ 128 ≤ m.toNat) ∧ ¬(128 ≤ a.toNat ↔ 8 ≤ hi % 16))
        z := decide ((a.toNat + m.toNat + bit c) % 256 = 0)
        c := decide (10 ≤ hi) } := by
  have hd := h.d_lt
  have hsign : 128 ≤ (hi * 16 + d) % 256 ↔ 8 ≤ hi % 16 := by omega
  have hcorrected : (if hi * 16 + d ≥ 160 then hi * 16 + d + 96 else hi * 16 + d) =
      (if 10 ≤ hi then hi + 6 else hi) * 16 + d := by
    split <;> split <;> omega
  have hcarry : (if 10 ≤ hi then hi + 6 else hi) * 16 + d ≥ 256 ↔ 10 ≤ hi := by
    split <;> omega
  simp only [adcDecimal, ← h.lo_eq, h.sum_eq, hcorrected, hcarry, testBit_seven, overflow_mask_iff,
    hsign, Nat.mod_eq_of_lt a.isLt, Nat.mod_eq_of_lt m.isLt]

theorem value_toNat (h : AdcDigits a m c lo d hi) :
    (adcDecimal a m c).value.toNat = (if 10 ≤ hi then hi + 6 else hi) % 16 * 16 + d := by
  have hd := h.d_lt
  rw [h.adcDecimal_eq, BitVec.toNat_ofNat]
  omega

/-- On valid low digits the correction takes 10 off the low digit and carries it. -/
theorem decimal_sum (h : AdcDigits a m c lo d hi) (ha : a.toNat % 16 ≤ 9) (hm : m.toNat % 16 ≤ 9) :
    (10 * (a.toNat / 16) + a.toNat % 16) + (10 * (m.toNat / 16) + m.toNat % 16) + bit c =
      10 * hi + d ∧ d ≤ 9 := by
  have hc := bit_le_one c
  obtain ⟨hlo, hd, hhi⟩ := h
  by_cases hten : 10 ≤ lo
  · rw [if_pos hten] at hd hhi; omega
  · rw [if_neg hten] at hd hhi; omega

end AdcDigits

/-- The high digit corrected is that of the decimal sum: valid digits make `hi` at most 19. -/
theorem adcHighDigit_eq {hi : Nat} (hhi : hi < 20) :
    (if 10 ≤ hi then hi + 6 else hi) % 16 = hi % 10 := by
  split <;> omega

theorem decimalTens_eq {hi d : Nat} (hd : d ≤ 9) : (10 * hi + d) % 100 / 10 = hi % 10 := by
  omega

theorem decimalUnits_eq {hi d : Nat} (hd : d ≤ 9) : (10 * hi + d) % 10 = d := by
  omega

/-- Settles O11: the digits of the addition give its result and its flags, and on valid digits they
are those of the decimal sum. -/
theorem adcDecimalAddsValidDigits : Obligations.AdcDecimalAddsValidDigits := by
  refine ⟨fun a m c => ?digits, fun a m c ha ha' hm hm' => ⟨_, rfl, ?valid⟩⟩
  case digits =>
    obtain ⟨lo, d, hi, h⟩ := exists_adcDigits a m c
    refine ⟨lo, d, hi, h.lo_eq, h.d_eq, h.hi_eq, h.value_toNat, ?_⟩
    rw [h.adcDecimal_eq]
    exact ⟨rfl, rfl, rfl, rfl⟩
  case valid =>
    obtain ⟨lo, d, hi, h⟩ := exists_adcDigits a m c
    obtain ⟨hsum, hd⟩ := h.decimal_sum ha hm
    have hc := bit_le_one c
    have hhi : hi < 20 := by omega
    rw [h.value_toNat, h.adcDecimal_eq, hsum, decide_eq_decide]
    constructor
    · rw [adcHighDigit_eq hhi, decimalTens_eq hd, decimalUnits_eq hd]
    · omega

/-! ## Decimal subtraction (R134) -/

/-- The digits of a decimal subtraction: `lo` and `hi` are the differences of the low and of the
high digits, each with the borrow from it, and `d` is the corrected low digit. -/
structure SbcDigits (a m : Byte) (c : Bool) (lo d hi : Int) : Prop where
  lo_eq : lo = (a.toNat % 16 : Nat) - (m.toNat % 16 : Nat) - (1 - (bit c : Nat))
  d_eq : d = if lo < 0 then (lo - 6) % 16 else lo
  hi_eq : hi = (a.toNat / 16 : Nat) - (m.toNat / 16 : Nat) - if lo < 0 then 1 else 0

theorem exists_sbcDigits (a m : Byte) (c : Bool) : ∃ lo d hi, SbcDigits a m c lo d hi :=
  ⟨_, _, _, rfl, rfl, rfl⟩

namespace SbcDigits

variable {a m : Byte} {c : Bool} {lo d hi : Int}

theorem d_bounds (h : SbcDigits a m c lo d hi) : 0 ≤ d ∧ d < 16 := by
  have hc := bit_le_one c
  obtain ⟨hlo, hd, -⟩ := h
  split at hd <;> omega

/-- The difference that the algorithm holds before the high digit is corrected. -/
theorem difference_eq (h : SbcDigits a m c lo d hi) :
    (a.toNat / 16 * 16 : Nat) - (m.toNat / 16 * 16 : Nat) +
      (if lo < 0 then (lo - 6) % 16 - 16 else lo) = hi * 16 + d := by
  obtain ⟨-, hd, hhi⟩ := h
  by_cases hneg : lo < 0
  · rw [if_pos hneg] at hd hhi ⊢; omega
  · rw [if_neg hneg] at hd hhi ⊢; omega

theorem sbcDecimal_value (h : SbcDigits a m c lo d hi) :
    (sbcDecimal a m c).value = BitVec.ofInt 8 ((if hi < 0 then hi - 6 else hi) * 16 + d) := by
  have hlo : (a.toNat % 16 : Nat) - (m.toNat % 16 : Nat) + (bit c : Nat) - 1 = lo := by
    rw [h.lo_eq]; omega
  have hd := h.d_bounds
  have hcorrected : (if hi * 16 + d < 0 then hi * 16 + d - 96 else hi * 16 + d) =
      (if hi < 0 then hi - 6 else hi) * 16 + d := by
    split <;> split <;> omega
  simp only [sbcDecimal, hlo, h.difference_eq, hcorrected]

theorem value_toNat (h : SbcDigits a m c lo d hi) :
    ((sbcDecimal a m c).value.toNat : Int) = (if hi < 0 then hi - 6 else hi) % 16 * 16 + d := by
  have hd := h.d_bounds
  rw [h.sbcDecimal_value, BitVec.toNat_ofInt]
  omega

/-- On valid low digits the correction adds the 10 that it borrows to the low digit. -/
theorem decimal_difference (h : SbcDigits a m c lo d hi) (ha : a.toNat % 16 ≤ 9)
    (hm : m.toNat % 16 ≤ 9) :
    ((10 * (a.toNat / 16) + a.toNat % 16 : Nat) : Int) -
      ((10 * (m.toNat / 16) + m.toNat % 16 : Nat) : Int) - (1 - (bit c : Nat)) =
        10 * hi + d ∧ d ≤ 9 := by
  have hc := bit_le_one c
  obtain ⟨hlo, hd, hhi⟩ := h
  by_cases hneg : lo < 0
  · rw [if_pos hneg] at hd hhi; omega
  · rw [if_neg hneg] at hd hhi; omega

end SbcDigits

/-- Of the flags of R134 C is the inverted borrow of the binary subtraction. -/
theorem sbcDecimal_c (a m : Byte) (c : Bool) :
    (sbcDecimal a m c).c =
      decide (0 ≤ (a.toNat : Int) - (m.toNat : Int) - (1 - (bit c : Nat))) :=
  congrArg AluResult.c (subBinary_eq a m c rfl rfl)

/-- The high digit corrected is that of the decimal difference: valid digits make `hi` at least
-10. -/
theorem sbcHighDigit_eq {hi : Int} (hlow : -10 ≤ hi) (hhigh : hi < 10) :
    (if hi < 0 then hi - 6 else hi) % 16 = hi % 10 := by
  split <;> omega

/-- Settles O12: the digits of the subtraction give its result, the flags are the binary ones by
definition, and on valid digits the digits are those of the decimal difference. -/
theorem sbcDecimalSubtractsValidDigits : Obligations.SbcDecimalSubtractsValidDigits := by
  refine ⟨fun a m c => ?digits, fun a m c => ?flags, fun a m c ha ha' hm hm' => ⟨_, rfl, ?valid⟩⟩
  case digits =>
    obtain ⟨lo, d, hi, h⟩ := exists_sbcDigits a m c
    exact ⟨lo, d, hi, h.lo_eq, h.d_eq, h.hi_eq, h.value_toNat⟩
  case flags =>
    have hbinary := subBinary_eq a m c rfl rfl
    exact ⟨_, _, rfl, rfl, congrArg AluResult.n hbinary, congrArg AluResult.z hbinary,
      sbcDecimal_c a m c, congrArg AluResult.v hbinary, rfl, rfl, rfl, rfl⟩
  case valid =>
    obtain ⟨lo, d, hi, h⟩ := exists_sbcDigits a m c
    have hc := bit_le_one c
    obtain ⟨hdiff, hd⟩ := h.decimal_difference ha hm
    have hd' := h.d_bounds
    constructor
    · have hunits : (10 * hi + d) % 10 = d := by omega
      have htens : (10 * hi + d) % 100 / 10 = hi % 10 := by omega
      rw [h.value_toNat, hdiff, hunits, htens, sbcHighDigit_eq (by omega) (by omega)]
    · rw [sbcDecimal_c, decide_eq_decide]
      omega

/-! ## Carry chains (R130) -/

theorem lowByte_toNat (w : Addr) : (lowByte w).toNat = w.toNat % 256 := BitVec.toNat_ofNat _ 8

theorem highByte_toNat (w : Addr) : (highByte w).toNat = w.toNat / 256 := by
  have := w.isLt
  rw [highByte, BitVec.toNat_ofNat]; omega

theorem lowByte_not (w : Addr) : lowByte (~~~w) = lowByte w ^^^ 0xFF#8 := by
  have := w.isLt
  rw [BitVec.toNat_eq, xor_ones_toNat, lowByte_toNat, lowByte_toNat, BitVec.toNat_not]; omega

theorem highByte_not (w : Addr) : highByte (~~~w) = highByte w ^^^ 0xFF#8 := by
  have := w.isLt
  rw [BitVec.toNat_eq, xor_ones_toNat, highByte_toNat, highByte_toNat, BitVec.toNat_not]; omega

theorem bit_decide (p : Prop) [Decidable p] : bit (decide p) = if p then 1 else 0 := by
  by_cases hp : p <;> simp [bit, hp]

/-- The carry out of the low bytes is the one into the high bytes. -/
theorem addBinary_chain (v w : Addr) (c : Bool) {lo hi : AluResult}
    (hlo : lo = addBinary (lowByte v) (lowByte w) c)
    (hhi : hi = addBinary (highByte v) (highByte w) lo.c) :
    joinBytes hi.value lo.value = v + w + BitVec.ofNat 16 (bit c) ∧
      hi.c = decide (v.toNat + w.toNat + bit c > 0xFFFF) := by
  have hc := bit_le_one c
  have hcarry : bit lo.c = if v.toNat % 256 + w.toNat % 256 + bit c > 255 then 1 else 0 := by
    rw [hlo, addBinary_c, bit_decide, lowByte_toNat, lowByte_toNat]
  have hlow : lo.value.toNat = (v.toNat % 256 + w.toNat % 256 + bit c) % 256 := by
    rw [hlo, addBinary_value_toNat, lowByte_toNat, lowByte_toNat]
  have hhigh : hi.value.toNat = (v.toNat / 256 + w.toNat / 256 + bit lo.c) % 256 := by
    rw [hhi, addBinary_value_toNat, highByte_toNat, highByte_toNat]
  constructor
  · rw [BitVec.toNat_eq, joinBytes_toNat, BitVec.toNat_add, BitVec.toNat_add, BitVec.toNat_ofNat]
    split at hcarry <;> omega
  · rw [hhi, addBinary_c, highByte_toNat, highByte_toNat, decide_eq_decide]
    split at hcarry <;> omega

/-- Settles O13: the adder by `addBinary_chain`, and the subtracter by the same lemma, since the
bytes of the one's complement of a word are the one's complements of its bytes. -/
theorem carryChainsSixteenBitArithmetic : Obligations.CarryChainsSixteenBitArithmetic := by
  refine fun v w c => ⟨⟨_, _, rfl, rfl, addBinary_chain v w c rfl rfl⟩, _, _, rfl, rfl, ?_⟩
  have hc := bit_le_one c
  have hw := w.isLt
  obtain ⟨hvalue, hcarry⟩ := addBinary_chain v (~~~w) c rfl rfl
  rw [lowByte_not, highByte_not] at hvalue hcarry
  constructor
  · refine hvalue.trans ?_
    bv_omega
  · refine hcarry.trans ?_
    rw [decide_eq_decide, BitVec.toNat_not]
    omega

/-! ## Compares (R135 to R138) -/

theorem withCompare_eq (p : Flags) (reg m : Byte) :
    p.withCompare reg m =
      { p with
        c := decide (m.toNat ≤ reg.toNat), z := decide (reg = m)
        n := decide (128 ≤ ((reg.toNat : Int) - (m.toNat : Int)) % 256) } := by
  have hn : (reg - m).getLsbD 7 = decide (128 ≤ ((reg.toNat : Int) - (m.toNat : Int)) % 256) := by
    have := m.isLt
    rw [getLsbD_seven, BitVec.toNat_sub, decide_eq_decide]
    omega
  rw [← hn]; rfl

/-- The meaning of a compare with the state after the read written out: of the registers only P is
written. -/
theorem compareReg_eq (reg : Byte) (o : Src) (s : State) :
    compareReg reg o s = .next
      { s with
        p := { s.p with
               c := decide ((readOperand o s).1.toNat ≤ reg.toNat)
               z := decide (reg = (readOperand o s).1)
               n := decide (128 ≤ ((reg.toNat : Int) - ((readOperand o s).1.toNat : Int)) % 256) }
        draws := (readOperand o s).2.draws, device := (readOperand o s).2.device } := by
  rw [← withCompare_eq]
  exact congrArg (β := Result) (fun t : State => .next (t.setP _)) (readOperand_snd_eq s o)

/-- Settles O14: the rows by the table, and each compare by the shared meaning at its register. -/
theorem comparesKeepOnlyFlags : Obligations.ComparesKeepOnlyFlags := by
  refine ⟨hasRows_rows .CMP, hasRows_rows .CPX, hasRows_rows .CPY,
    fun i s hcmp => ?cmp, fun i s hcpx => ?cpx, fun i s hcpy => ?cpy⟩
  case cmp =>
    obtain ⟨o, ho, hexec⟩ := exec_cmp hcmp s
    exact ⟨o, _, ho, rfl, hexec.trans (compareReg_eq s.a o s)⟩
  case cpx =>
    obtain ⟨o, ho, hexec⟩ := exec_cpx hcpx s
    exact ⟨o, _, ho, rfl, hexec.trans (compareReg_eq s.x o s)⟩
  case cpy =>
    obtain ⟨o, ho, hexec⟩ := exec_cpy hcpy s
    exact ⟨o, _, ho, rfl, hexec.trans (compareReg_eq s.y o s)⟩

end Sys2Proof.Machine
end

section
/-! PROOFS. The family 45_incdec.md: what INC and DEC (O15) and DEX, DEY, INX and INY (O16) do, and their rows. -/

namespace Sys2Proof.Machine

/-! ## Replacing a byte of memory (R80, R82) -/

section
variable {i : Instr} {s : State} {m : MemMode} {f : Byte → Byte}

/-- A read-modify-write of memory that then writes P replaces its operand: it changes
memory, the record of writes outside ram, what its reads draw, the devices' state and P, and
`modifyOperand_mem_wroteByte` says what it does to the first two. -/
theorem replacesOperand_of_modifyOperand_mem {fl : Byte → Flags} (hm : i.operand = .memory m)
    (hexec : exec i s =
      .next ((modifyOperand (.mem m) f s).2.setP (fl (readOperand (.mem m) s).1))) :
    ReplacesOperand i s f fl := by
  refine .inr ⟨m, _, hm, hexec, ?frame, modifyOperand_mem_wroteByte s m f⟩
  case frame => rw [State.mk.injEq]; simp

/-! ## INC and DEC (R141, R144) -/

/-- The shared meaning of INC and DEC replaces its operand by `f` of it: N and Z are those of the
result, and `modifyOperand` leaves P as it was. -/
theorem replacesOperand_of_incDec (hm : i.operand = .memory m) (hexec : exec i s = incDec f m s) :
    ReplacesOperand i s f fun v => s.p.withNZ (f v) := by
  refine replacesOperand_of_modifyOperand_mem hm (hexec.trans ?_)
  rw [incDec, State.setNZ, modifyOperand_mem_snd_p, modifyOperand_mem_fst]

end

theorem add_one_eq_ofNat (v : Byte) : v + 1#8 = BitVec.ofNat 8 (v.toNat + 1) := by
  bv_omega

theorem sub_one_eq_ofNat (v : Byte) : v - 1#8 = BitVec.ofNat 8 (v.toNat + 255) := by
  bv_omega

/-- Settles O15: the rows by the table, and each instruction by the shared meaning at its operation,
put into plain arithmetic. -/
theorem incAndDecReplaceAMemoryByte : Obligations.IncAndDecReplaceAMemoryByte := by
  refine ⟨hasRows_rows .DEC, hasRows_rows .INC, fun i s hdec => ?dec, fun i s hinc => ?inc⟩
  case dec =>
    obtain ⟨m, hm, hexec⟩ := exec_dec hdec s
    rw [funext sub_one_eq_ofNat] at hexec
    exact replacesOperand_of_incDec hm hexec
  case inc =>
    obtain ⟨m, hm, hexec⟩ := exec_inc hinc s
    rw [funext add_one_eq_ofNat] at hexec
    exact replacesOperand_of_incDec hm hexec

/-! ## DEX, DEY, INX and INY (R142, R143, R145, R146) -/

/-- Settles O16: the rows by the table, and each instruction by the meaning its mnemonic runs: the
named updates of that meaning are the statement's fields by definition. -/
theorem indexRegistersCountByOne : Obligations.IndexRegistersCountByOne := by
  refine ⟨hasRows_rows .DEX, hasRows_rows .DEY, hasRows_rows .INX, hasRows_rows .INY,
    ?dex, ?dey, ?inx, ?iny⟩
  case dex => exact exec_dex rfl
  case dey => exact exec_dey rfl
  case inx => exact exec_inx rfl
  case iny => exact exec_iny rfl

end Sys2Proof.Machine
end

section
/-! PROOFS. The family 46_shift_rotate.md: what ASL, LSR, ROL and ROR do to their operand and to P (O17), their rows, and nine rotations of the accumulator through C (O18). -/

namespace Sys2Proof.Machine

/-! ## The shared meaning of the shifts (R150) -/

section
variable {i : Instr} {s : State} {f : Byte → Bool → ShiftResult}

/-- What a shift of the accumulator leaves: A shifted, and C, N and Z written (R82, R150). -/
def State.shiftA (f : Byte → Bool → ShiftResult) (s : State) : State :=
  { s with a := (f s.a s.p.c).value, p := s.p.withShift (f s.a s.p.c) }

theorem shift_acc (f : Byte → Bool → ShiftResult) (s : State) :
    shift f .acc s = .next (s.shiftA f) := rfl

/-- The shared meaning of the shifts replaces its operand by the byte shifted with the old carry, and
P takes the bit shifted out: C is read before P is written. -/
theorem replacesOperand_of_shift (hexec : ∃ o, i.operand.rmw? = some o ∧ exec i s = shift f o s) :
    ReplacesOperand i s (fun v => (f v s.p.c).value) fun v => s.p.withShift (f v s.p.c) := by
  obtain ⟨o, ho, hexec⟩ := hexec
  cases o with
  | acc => exact .inl ⟨eq_accumulator_of_rmw? ho, hexec.trans (shift_acc f s)⟩
  | mem m => exact replacesOperand_of_modifyOperand_mem (eq_memory_of_rmw? ho) hexec

/-- The flags after an instruction that replaces its operand are those it computes from some byte. -/
theorem ReplacesOperand.exists_p_eq {r : Byte → Byte} {fl : Byte → Flags} {t : State}
    (h : ReplacesOperand i s r fl) (ht : exec i s = .next t) : ∃ v, t.p = fl v := by
  obtain ⟨-, hexec⟩ | ⟨m, u, -, hexec, hu, -⟩ := h
  · cases hexec.symm.trans ht
    exact ⟨s.a, rfl⟩
  · cases hexec.symm.trans ht
    exact ⟨_, congrArg State.p hu⟩

end

/-! ## ASL, LSR, ROL and ROR (R151 to R154) -/

/-- The bit that LSR moves into the sign is 0, so N is clear after it (R152). -/
theorem shiftLsr_value_getLsbD_seven (v : Byte) (c : Bool) :
    (shiftLsr v c).value.getLsbD 7 = false := by
  have := v.isLt
  rw [getLsbD_seven, decide_eq_false_iff_not, shiftLsr, BitVec.toNat_ofNat]
  omega

theorem shiftRor_eq (v : Byte) (c : Bool) :
    shiftRor v c = { value := BitVec.ofNat 8 (v.toNat / 2 + 128 * bit c), out := v.getLsbD 0 } := by
  rw [shiftRor, Nat.mul_comm]

/-- Settles O17: the rows by the table, and each instruction by the shared meaning at its shift; N
after LSR by the bit it moves in. -/
theorem shiftsAndRotatesMoveOneBit : Obligations.ShiftsAndRotatesMoveOneBit := by
  refine ⟨hasRows_rows .ASL, hasRows_rows .LSR, hasRows_rows .ROL, hasRows_rows .ROR,
    fun i s hasl => ?asl, fun i s hlsr => ?lsr, fun i s hrol => ?rol, fun i s hror => ?ror,
    fun i s t hlsr ht => ?lsrSign⟩
  case asl => exact replacesOperand_of_shift (exec_asl hasl s)
  case lsr => exact replacesOperand_of_shift (exec_lsr hlsr s)
  case rol => exact replacesOperand_of_shift (exec_rol hrol s)
  case ror =>
    have h := replacesOperand_of_shift (exec_ror hror s)
    simp only [shiftRor_eq] at h
    exact h
  case lsrSign =>
    obtain ⟨v, hp⟩ := (replacesOperand_of_shift (exec_lsr hlsr s)).exists_p_eq ht
    rw [hp, Flags.withShift_n]
    exact shiftLsr_value_getLsbD_seven v s.p.c

/-! ## The ring of a byte and the carry (R150, R153)

A byte and the carry are the nine bits of one ring, the carry above bit 7. ROL turns the ring by one
place, so nine ROLs turn it once around; ROL undoes ROR, so the same holds of nine RORs. -/

/-- A and C, as the byte and the bit shifted out that a shift would have left there. -/
def State.ring (s : State) : ShiftResult :=
  { value := s.a, out := s.p.c }

/-- The shift of what a shift has left. -/
def ShiftResult.again (f : Byte → Bool → ShiftResult) (r : ShiftResult) : ShiftResult :=
  f r.value r.out

theorem ring_shiftA (f : Byte → Bool → ShiftResult) (s : State) :
    (s.shiftA f).ring = s.ring.again f := rfl

/-- The byte and the carry as nine bits, the carry on top. -/
def ShiftResult.bits (r : ShiftResult) : BitVec 9 :=
  BitVec.cons r.out r.value

theorem ShiftResult.bits_injective : Function.Injective ShiftResult.bits := by
  intro r r' h
  have hvalue : r.value = r'.value := by
    simpa only [bits, BitVec.setWidth_cons] using congrArg (BitVec.setWidth 8) h
  have hout : r.out = r'.out := by
    simpa only [bits, BitVec.msb_cons] using congrArg BitVec.msb h
  rw [mk.injEq]
  exact ⟨hvalue, hout⟩

theorem ShiftResult.bits_toNat (r : ShiftResult) :
    r.bits.toNat = 256 * bit r.out + r.value.toNat := by
  rw [bits, BitVec.toNat_cons', Nat.shiftLeft_eq, bit_eq_toNat, Nat.mul_comm]

theorem concat_toNat (v : Byte) (c : Bool) : (v.concat c).toNat = v.toNat * 2 + bit c := by
  rw [BitVec.toNat_concat, bit_eq_toNat]

/-- After ROL the carry, which stood above bit 7, stands below bit 0 of the old byte (R153). -/
theorem bits_again_shiftRol (r : ShiftResult) :
    (r.again shiftRol).bits = r.value.concat r.out := by
  have hv := r.value.isLt
  have hc := bit_le_one r.out
  have hcarry : bit (r.value.getLsbD 7) = if 128 ≤ r.value.toNat then 1 else 0 := by
    rw [getLsbD_seven, bit_decide]
  rw [BitVec.toNat_eq, ShiftResult.bits_toNat, concat_toNat, ShiftResult.again, shiftRol,
    BitVec.toNat_ofNat, hcarry]
  split <;> omega

/-- After ROR the old byte with the carry above bit 7 stands in the new byte with the new carry below
bit 0 (R154). -/
theorem concat_again_shiftRor (r : ShiftResult) :
    (r.again shiftRor).value.concat (r.again shiftRor).out = r.bits := by
  have hv := r.value.isLt
  have hc := bit_le_one r.out
  have hcarry : bit (r.value.getLsbD 0) = if r.value.toNat % 2 = 1 then 1 else 0 := by
    rw [BitVec.getLsbD, Nat.testBit_zero, bit_decide]
  rw [BitVec.toNat_eq, ShiftResult.bits_toNat, concat_toNat, ShiftResult.again, shiftRor,
    BitVec.toNat_ofNat, hcarry]
  split <;> omega

/-- ROL undoes ROR, carry and all. -/
theorem again_shiftRol_shiftRor :
    Function.LeftInverse (ShiftResult.again shiftRol) (ShiftResult.again shiftRor) := fun r =>
  ShiftResult.bits_injective ((bits_again_shiftRol _).trans (concat_again_shiftRor r))

/-- One ROL moves each bit of the ring up by one place and the top bit to the bottom: place `k` takes
what place `k - 1`, which is `k + 8` of the nine, held. -/
theorem bits_again_shiftRol_getLsbD (r : ShiftResult) (k : Fin 9) :
    (r.again shiftRol).bits.getLsbD k = r.bits.getLsbD ↑(k + 8) := by
  rw [bits_again_shiftRol, ShiftResult.bits, BitVec.getLsbD_concat, BitVec.getLsbD_cons]
  cases k using Fin.cases with
  | zero => rfl
  | succ j =>
    have hdown : (j.succ + 8 : Fin 9).val = j := by
      have height : (8 : Fin 9).val = 8 := rfl
      rw [Fin.val_add, Fin.val_succ, height]
      omega
    rw [hdown, Fin.val_succ, if_neg (Nat.succ_ne_zero j), if_neg j.isLt.ne, Nat.add_sub_cancel]

theorem bits_iterate_shiftRol_getLsbD (n : Nat) (r : ShiftResult) (k : Fin 9) :
    ((ShiftResult.again shiftRol)^[n] r).bits.getLsbD k = r.bits.getLsbD ↑(k + n • 8) := by
  induction n generalizing r with
  | zero => rw [zero_nsmul, add_zero]; rfl
  | succ n ih =>
    rw [Function.iterate_succ_apply, ih, bits_again_shiftRol_getLsbD, add_assoc, succ_nsmul]

theorem nine_shiftRol (r : ShiftResult) : (ShiftResult.again shiftRol)^[9] r = r := by
  refine ShiftResult.bits_injective (BitVec.eq_of_getLsbD_eq fun k hk => ?_)
  have haround : (9 • 8 : Fin 9) = 0 := rfl
  have h := bits_iterate_shiftRol_getLsbD 9 r ⟨k, hk⟩
  rw [haround, add_zero] at h
  exact h

/-- ROL undoes nine RORs by nine ROLs, which change nothing. -/
theorem nine_shiftRor (r : ShiftResult) : (ShiftResult.again shiftRor)^[9] r = r :=
  (nine_shiftRol _).symm.trans (again_shiftRol_shiftRor.iterate 9 r)

/-! ## Shifts of the accumulator in a row -/

/-- An instruction that shifts A, run `n` times by any `run` that goes on from a completed step,
completes and leaves in A and C the `n`-fold shift of them. -/
theorem iterate_shiftA {f : Byte → Bool → ShiftResult} {run : Result → Result}
    (hrun : ∀ s : State, run (.next s) = .next (s.shiftA f)) (n : Nat) (s : State) :
    ∃ t, run^[n] (.next s) = .next t ∧ t.ring = (ShiftResult.again f)^[n] s.ring := by
  have hstates : Function.Semiconj (.next : State → Result) (State.shiftA f) run :=
    fun s => (hrun s).symm
  have hring : Function.Semiconj State.ring (State.shiftA f) (ShiftResult.again f) :=
    ring_shiftA f
  exact ⟨_, ((hstates.iterate_right n).eq s).symm, (hring.iterate_right n).eq s⟩

/-- Where nine shifts restore the byte and the carry, nine runs of the instruction restore A and C. -/
theorem nine_runs_restore {f : Byte → Bool → ShiftResult} {run : Result → Result}
    (hrun : ∀ s : State, run (.next s) = .next (s.shiftA f))
    (hnine : ∀ r, (ShiftResult.again f)^[9] r = r) (s : State) :
    ∃ t, run^[9] (.next s) = .next t ∧ t.a = s.a ∧ t.p.c = s.p.c := by
  obtain ⟨t, ht, hring⟩ := iterate_shiftA hrun 9 s
  rw [hnine] at hring
  exact ⟨t, ht, congrArg ShiftResult.value hring, congrArg ShiftResult.out hring⟩

theorem exec_rolAcc (s : State) : exec .rolAcc s = .next (s.shiftA shiftRol) := by
  obtain ⟨o, ⟨⟩, hexec⟩ := exec_rol (i := .rolAcc) rfl s
  exact hexec

theorem exec_rorAcc (s : State) : exec .rorAcc s = .next (s.shiftA shiftRor) := by
  obtain ⟨o, ⟨⟩, hexec⟩ := exec_ror (i := .rorAcc) rfl s
  exact hexec

/-- Settles O18: each instruction turns the ring of A and C by one place of nine. -/
theorem nineRolsRestoreByteAndCarry : Obligations.NineRolsRestoreByteAndCarry := fun s =>
  ⟨nine_runs_restore exec_rolAcc nine_shiftRol s, nine_runs_restore exec_rorAcc nine_shiftRor s⟩

end Sys2Proof.Machine
end

section
/-! PROOFS. The stack in plain memory: what a word pulled and an exception returned from read there, and what the pushes of a word and of an exception leave there on a stack in ram. The round trips of JSR with RTS and of an entry with RTI follow from these. -/

namespace Sys2Proof.Machine

variable {s t : State}

/-! ## Writes to ram -/

/-- A write to ram stores its byte and is not recorded (R48). -/
theorem WroteByte.of_ram {a : Addr} {v : Byte} (h : WroteByte s t a v) (hram : s.kindAt a = .ram) :
    t.byteAt a = v ∧ t.events = s.events := by
  obtain ⟨-, hstored, -⟩ := h
  exact hstored hram

/-- Writes to different addresses of ram are each read back. -/
theorem WroteBytes.byteAt_of_ram {l : List (Addr × Byte)} (h : WroteBytes s t l)
    (hram : ∀ w ∈ l, s.kindAt w.1 = .ram) (hnodup : (l.map Prod.fst).Nodup) :
    ∀ w ∈ l, t.byteAt w.1 = w.2 := by
  induction l generalizing s with
  | nil => simp
  | cons w l ih =>
    obtain ⟨u, hcfg, -, -, hw, hrest⟩ := h
    rw [List.map_cons, List.nodup_cons] at hnodup
    obtain ⟨hnotMem, hnodup⟩ := hnodup
    rw [List.forall_mem_cons] at hram ⊢
    obtain ⟨hramHead, hramRest⟩ := hram
    constructor
    · have hother : ∀ w' ∈ l, w.1 ≠ w'.1 := fun w' hw' he =>
        hnotMem (he ▸ List.mem_map_of_mem (f := Prod.fst) hw')
      rw [hrest.other hother]
      exact (hw.of_ram hramHead).left
    · exact ih hrest (fun w' hw' => (State.kindAt_congr hcfg _).trans (hramRest w' hw')) hnodup

/-- Writes to ram leave the record and the devices alone. -/
theorem WroteBytes.events_device_of_ram {l : List (Addr × Byte)} (h : WroteBytes s t l)
    (hram : ∀ w ∈ l, s.kindAt w.1 = .ram) : t.events = s.events ∧ t.device = s.device := by
  induction l generalizing s with
  | nil =>
    obtain ⟨-, hevents, hdevice⟩ := h
    exact ⟨hevents, hdevice⟩
  | cons w l ih =>
    obtain ⟨u, hcfg, -, hdevice, hw, hrest⟩ := h
    rw [List.forall_mem_cons] at hram
    obtain ⟨hramHead, hramRest⟩ := hram
    obtain ⟨hevents', hdevice'⟩ :=
      ih hrest fun w' hw' => (State.kindAt_congr hcfg _).trans (hramRest w' hw')
    rw [hevents', hdevice', (hw.of_ram hramHead).right, hdevice, State.deviceAfter_ram s _ hramHead]
    exact ⟨rfl, rfl⟩

/-! ## The stack page (R42) -/

theorem State.byteAt_congr (hmem : t.mem = s.mem) (a : Addr) : t.byteAt a = s.byteAt a := by
  rw [State.byteAt, hmem]

theorem State.PageOneRam.congr (h : s.PageOneRam) (hcfg : t.cfg = s.cfg) : t.PageOneRam :=
  fun sp => (State.kindAt_congr hcfg _).trans (h sp)

theorem State.PageOneRam.plain (h : s.PageOneRam) (sp : Byte) : s.Plain (stackAddr sp) :=
  .inl (h sp)

/-- Different distances below S are different addresses, S wrapping modulo 256. -/
theorem stackAddr_sub_ne {sp j k : Byte} (h : j ≠ k) : stackAddr (sp - j) ≠ stackAddr (sp - k) :=
  fun he => h (sub_right_injective (stackAddr_inj he))

/-! ## Words on the stack (R8) -/

/-- A word pulled from plain memory, its low byte first. -/
theorem pull16_plain (hl : s.Plain (stackAddr (s.sp + 1#8))) (hh : s.Plain (stackAddr (s.sp + 2#8))) :
    pull16 s =
      (joinBytes (s.byteAt (stackAddr (s.sp + 2#8))) (s.byteAt (stackAddr (s.sp + 1#8))),
        s.setSp (s.sp + 2#8)) := by
  have hsp : s.sp + 1#8 + 1#8 = s.sp + 2#8 := BitVec.add_assoc s.sp 1#8 1#8
  have hhigh := pull8_plain (s.setSp (s.sp + 1#8)) (by rw [State.setSp_sp, hsp]; exact hh)
  rw [State.setSp_sp, hsp] at hhigh
  simp only [pull16, pull8_plain s hl, hhigh]
  rfl

/-- What a word pushed leaves on a stack in ram. -/
theorem push16_byteAt (w : Addr) (h : s.PageOneRam) :
    (push16 w s).byteAt (stackAddr s.sp) = highByte w ∧
      (push16 w s).byteAt (stackAddr (s.sp - 1#8)) = lowByte w := by
  have hne : stackAddr s.sp ≠ stackAddr (s.sp - 1#8) := by
    simpa using stackAddr_sub_ne (sp := s.sp) (show (0#8 : Byte) ≠ 1#8 by decide)
  have hbytes := (push16_wroteBytes s w).byteAt_of_ram (by simp [h _]) (by simpa using hne)
  simpa using hbytes

/-- A word pushed on a stack in ram is not recorded and does not reach the devices. -/
theorem push16_events_device (w : Addr) (h : s.PageOneRam) :
    (push16 w s).events = s.events ∧ (push16 w s).device = s.device :=
  (push16_wroteBytes s w).events_device_of_ram (by simp [h _])

/-- `pull16_push16` with other registers changed in between: a pull sees the stack pointer, the map and
memory alone. -/
theorem pull16_of_pushed {w : Addr} (h : s.PageOneRam) (hsp : t.sp = (push16 w s).sp)
    (hcfg : t.cfg = s.cfg) (hmem : t.mem = (push16 w s).mem) :
    pull16 t = (w, t.setSp s.sp) := by
  have hlow : t.sp + 1#8 = s.sp - 1#8 := by rw [hsp, push16_sp]; bv_omega
  have hhigh : t.sp + 2#8 = s.sp := by rw [hsp, push16_sp]; bv_omega
  obtain ⟨hbyteHigh, hbyteLow⟩ := push16_byteAt w h
  have hplain := (h.congr hcfg).plain
  rw [pull16_plain (hplain _) (hplain _), hlow, hhigh, State.byteAt_congr hmem,
    State.byteAt_congr hmem, hbyteHigh, hbyteLow, joinBytes_highByte_lowByte]

/-! ## Entering and leaving a handler (R185, R187, R207) -/

/-- What the pushes of an exception leave on a stack in ram. -/
theorem pushFrame_byteAt (ret : Addr) (b : Bool) (h : s.PageOneRam) :
    (pushFrame ret b s).byteAt (stackAddr s.sp) = highByte ret ∧
      (pushFrame ret b s).byteAt (stackAddr (s.sp - 1#8)) = lowByte ret ∧
      (pushFrame ret b s).byteAt (stackAddr (s.sp - 2#8)) = packP b s.p := by
  have hne01 : stackAddr s.sp ≠ stackAddr (s.sp - 1#8) := by
    simpa using stackAddr_sub_ne (sp := s.sp) (show (0#8 : Byte) ≠ 1#8 by decide)
  have hne02 : stackAddr s.sp ≠ stackAddr (s.sp - 2#8) := by
    simpa using stackAddr_sub_ne (sp := s.sp) (show (0#8 : Byte) ≠ 2#8 by decide)
  have hne12 : stackAddr (s.sp - 1#8) ≠ stackAddr (s.sp - 2#8) := stackAddr_sub_ne (by decide)
  have hbytes := (pushFrame_wroteBytes s ret b).byteAt_of_ram (by simp [h _])
    (by simp [hne01, hne02, hne12])
  simpa using hbytes

/-- The pushes of an exception on a stack in ram are not recorded and do not reach the devices. -/
theorem pushFrame_events_device (ret : Addr) (b : Bool) (h : s.PageOneRam) :
    (pushFrame ret b s).events = s.events ∧ (pushFrame ret b s).device = s.device :=
  (pushFrame_wroteBytes s ret b).events_device_of_ram (by simp [h _])

/-- A pull does not see P. -/
theorem pull8_setP (p : Flags) (s : State) :
    pull8 (s.setP p) = ((pull8 s).1, (pull8 s).2.setP p) :=
  Prod.ext rfl (State.setP_touch (s.setSp (s.sp + 1#8)) p _)

theorem pull16_setP (p : Flags) (s : State) :
    pull16 (s.setP p) = ((pull16 s).1, (pull16 s).2.setP p) := by
  simp only [pull16, pull8_setP]

/-- Returning from an exception in the order of its pulls: P, then pc (R187). -/
theorem returnFromHandler_eq_pulls (s : State) :
    returnFromHandler s =
      { s with
        sp := s.sp + 3#8, p := unpackP (pull8 s).1, pc := (pull16 (pull8 s).2).1
        draws := (pull16 (pull8 s).2).2.draws, device := (pull16 (pull8 s).2).2.device } := by
  rw [returnFromHandler_eq, returnFromHandler_p]
  simp only [returnFromHandler, pull16_setP]
  rfl

/-- Returning from an exception whose three bytes are plain. -/
theorem returnFromHandler_plain (hp : s.Plain (stackAddr (s.sp + 1#8)))
    (hl : s.Plain (stackAddr (s.sp + 2#8))) (hh : s.Plain (stackAddr (s.sp + 3#8))) :
    returnFromHandler s =
      { s with
        sp := s.sp + 3#8, p := unpackP (s.byteAt (stackAddr (s.sp + 1#8)))
        pc := joinBytes (s.byteAt (stackAddr (s.sp + 3#8)))
          (s.byteAt (stackAddr (s.sp + 2#8))) } := by
  have hlow : s.sp + 1#8 + 1#8 = s.sp + 2#8 := BitVec.add_assoc s.sp 1#8 1#8
  have hhigh : s.sp + 1#8 + 2#8 = s.sp + 3#8 := BitVec.add_assoc s.sp 1#8 2#8
  have hword := pull16_plain (s := s.setSp (s.sp + 1#8)) (by rw [State.setSp_sp, hlow]; exact hl)
    (by rw [State.setSp_sp, hhigh]; exact hh)
  rw [State.setSp_sp, hlow, hhigh] at hword
  rw [returnFromHandler_eq_pulls, pull8_plain s hp, hword]
  rfl

/-- The frame of an exception as it stands above S on a stack in ram: P, then the return address, its
low byte first (R208). Only S, the map and memory matter. -/
theorem byteAt_of_pushedFrame {ret : Addr} {b : Bool} (h : s.PageOneRam) (hsp : t.sp = s.sp - 3#8)
    (hmem : t.mem = (pushFrame ret b s).mem) :
    t.byteAt (stackAddr (t.sp + 1#8)) = packP b s.p ∧
      t.byteAt (stackAddr (t.sp + 2#8)) = lowByte ret ∧
      t.byteAt (stackAddr (t.sp + 3#8)) = highByte ret := by
  have hstatus : t.sp + 1#8 = s.sp - 2#8 := by rw [hsp]; bv_omega
  have hlow : t.sp + 2#8 = s.sp - 1#8 := by rw [hsp]; bv_omega
  have hhigh : t.sp + 3#8 = s.sp := by rw [hsp]; bv_omega
  obtain ⟨hbyteHigh, hbyteLow, hbyteStatus⟩ := pushFrame_byteAt ret b h
  simp only [hstatus, hlow, hhigh, State.byteAt_congr hmem]
  exact ⟨hbyteStatus, hbyteLow, hbyteHigh⟩

/-- RTI on the frame of an exception on a stack in ram restores S, P and pc, whatever was done to the
other registers in between (R210). -/
theorem returnFromHandler_of_pushedFrame {ret : Addr} {b : Bool} (h : s.PageOneRam)
    (hsp : t.sp = s.sp - 3#8) (hcfg : t.cfg = s.cfg) (hmem : t.mem = (pushFrame ret b s).mem) :
    returnFromHandler t = { t with sp := s.sp, p := s.p, pc := ret } := by
  have hback : t.sp + 3#8 = s.sp := by rw [hsp]; bv_omega
  obtain ⟨hbyteStatus, hbyteLow, hbyteHigh⟩ := byteAt_of_pushedFrame h hsp hmem
  have hplain := (h.congr hcfg).plain
  rw [returnFromHandler_plain (hplain _) (hplain _) (hplain _), hbyteStatus, hbyteLow, hbyteHigh,
    unpackP_packP, joinBytes_highByte_lowByte, hback]

end Sys2Proof.Machine
end

section
/-! PROOFS. The family 47_branch_jump.md: what the branches (O19), the jumps (O20), JSR (O21) and RTS (O22) do, their rows, and RTS after JSR (O23). -/

namespace Sys2Proof.Machine

variable {s t u : State}

/-! ## Branches (R160 to R168) -/

/-- `sext_16` of R5 keeps the signed value of a byte. -/
theorem signExtend16_eq_ofInt (d : Byte) : signExtend16 d = BitVec.ofInt 16 d.toInt := by
  refine BitVec.eq_of_toNat_eq ?_
  have := d.isLt
  rw [signExtend16, BitVec.toNat_ofInt, BitVec.toInt_eq_toNat_cond]
  split
  · rw [BitVec.toNat_ofNat, if_pos (by omega)]; omega
  · rw [BitVec.toNat_ofNat, if_neg (by omega)]; omega

/-- R93: the target is the signed displacement added to the address after the branch. -/
theorem branchTarget_eq_ofInt (d : Byte) (s : State) :
    branchTarget d s = BitVec.ofInt 16 ((s.pc.toNat : Int) + d.toInt) := by
  rw [branchTarget, signExtend16_eq_ofInt, BitVec.ofInt_add, BitVec.ofInt_natCast,
    BitVec.ofNat_toNat, BitVec.setWidth_eq]

/-- A branch that tests a flag for 1. -/
theorem branch_eq (flag : Bool) (d : Byte) (s : State) :
    branch flag d s = .next
      (if flag = true then { s with pc := BitVec.ofInt 16 ((s.pc.toNat : Int) + d.toInt) }
      else s) := by
  rw [branch, branchTarget_eq_ofInt]; rfl

/-- A branch that tests a flag for 0. -/
theorem branch_not_eq (flag : Bool) (d : Byte) (s : State) :
    branch (!flag) d s = .next
      (if flag = false then { s with pc := BitVec.ofInt 16 ((s.pc.toNat : Int) + d.toInt) }
      else s) := by
  rw [branch_eq]
  simp only [Bool.not_eq_true']

/-- Settles O19: the rows by the table, and each branch by the shared meaning at its flag, tested for
0 or for 1. -/
theorem branchesAddASignedDisplacement : Obligations.BranchesAddASignedDisplacement :=
  ⟨hasRows_rows .BCC, hasRows_rows .BCS, hasRows_rows .BEQ, hasRows_rows .BMI, hasRows_rows .BNE,
    hasRows_rows .BPL, hasRows_rows .BVC, hasRows_rows .BVS,
    fun d s => branch_not_eq s.p.c d s, fun d s => branch_eq s.p.c d s,
    fun d s => branch_eq s.p.z d s, fun d s => branch_eq s.p.n d s,
    fun d s => branch_not_eq s.p.z d s, fun d s => branch_not_eq s.p.n d s,
    fun d s => branch_not_eq s.p.v d s, fun d s => branch_eq s.p.v d s⟩

/-! ## Jumps (R169) -/

/-- The second byte of the pointer of `JMP (addr)` stands in the page of the first (R7, R90). -/
theorem pageWrap_toNat (w : Addr) :
    (joinBytes (highByte w) (lowByte w + 1#8)).toNat =
      w.toNat / 256 * 256 + (w.toNat + 1) % 256 := by
  rw [joinBytes_toNat, highByte_toNat, BitVec.toNat_add, lowByte_toNat]
  simp

/-- Settles O20: the rows by the table; the pointer's reads are those of the pair that JMP (addr)
reads. -/
theorem jumpsLoadThePc : Obligations.JumpsLoadThePc := by
  refine ⟨hasRows_rows .JMP, fun w s => rfl, fun w s => ⟨_, pageWrap_toNat w, ?_⟩⟩
  rw [exec_jmpInd, readPair_eq, State.touch_eq (s.touch w), State.touch_eq s]
  rfl

/-! ## Subroutines (R170, R171) -/

theorem exec_jsr_eq_next_iff {w : Addr} : exec (.jsr w) s = .next t ↔
    t = (push16 (s.pc - 1#16) (s.markJsr (jsrOverlaps s))).setPc w := by
  rw [show exec (.jsr w) s = execJsr w s from rfl, execJsr, Host.Outcome.next.injEq, eq_comm]

theorem exec_rts_eq_next_iff :
    exec .rts s = .next t ↔ t = (pull16 s).2.setPc ((pull16 s).1 + 1#16) := by
  rw [exec_rts rfl, execRts, Host.Outcome.next.injEq, eq_comm]

/-- The pushes of a word change only S, memory, the record and the devices' state. -/
theorem push16_eq (w : Addr) (s : State) :
    push16 w s =
      { s with
        mem := (push16 w s).mem, events := (push16 w s).events
        device := (push16 w s).device, sp := s.sp - 2#8 } := by
  rw [State.mk.injEq]; simp

/-- Which JSR overlaps its own pushes: one of its three bytes is at one of the two addresses (U9). -/
theorem jsrOverlaps_iff (s : State) : jsrOverlaps s = true ↔ ∃ k ∈ [1#16, 2#16, 3#16],
    s.pc - k = stackAddr s.sp ∨ s.pc - k = stackAddr (s.sp - 1#8) := by
  simp only [jsrOverlaps, Bool.or_eq_true, List.contains_iff_mem, List.mem_cons, List.not_mem_nil,
    or_false, exists_eq_or_imp, exists_eq_left, eq_comm (b := s.pc - _)]
  exact iff_of_eq (by ac_rfl)

/-- Settles O21: the row by the table, and JSR as the pushes of a word on the marked state. -/
theorem jsrPushesItsLastByteAddress : Obligations.JsrPushesItsLastByteAddress := by
  refine ⟨hasRows_rows .JSR, fun w s => ⟨_, exec_jsr_eq_next_iff.mpr rfl, ?frame, ?writes, ?mark⟩⟩
  case frame => rw [push16_eq]; rfl
  case writes =>
    exact (push16_wroteBytes (s.markJsr (jsrOverlaps s)) (s.pc - 1#16)).of_same rfl rfl rfl rfl rfl
      rfl rfl rfl
  case mark =>
    rw [State.setPc_jsrOverlap, push16_jsrOverlap, State.markJsr_jsrOverlap, Bool.or_eq_true,
      jsrOverlaps_iff]

/-- Settles O22: the row by the table, and RTS as the pull of a word. -/
theorem rtsReturnsPastThePulledAddress : Obligations.RtsReturnsPastThePulledAddress := by
  refine ⟨hasRows_rows .RTS, fun s => ?any, fun s hl hh => ?plain⟩
  case any => rw [exec_rts_eq_next_iff, pull16_snd_eq]; rfl
  case plain => rw [exec_rts_eq_next_iff, pull16_plain hl hh]; rfl

/-- On a stack in ram the pushes of a word change only S and memory. -/
theorem push16_eq_of_pageOneRam (w : Addr) (h : s.PageOneRam) :
    push16 w s = { s with mem := (push16 w s).mem, sp := s.sp - 2#8 } := by
  obtain ⟨hevents, hdevice⟩ := push16_events_device w h
  exact (push16_eq w s).trans (by rw [hevents, hdevice])

/-- On a stack in ram RTS after a JSR pulls the word pushed, and adds the 1 that JSR took off. -/
theorem exec_rts_of_exec_jsr {w target : Addr} (hram : s.PageOneRam)
    (hjsr : exec (.jsr target) s = .next t) :
    exec .rts { t with pc := w } =
      .next { s with mem := t.mem, jsrOverlap := t.jsrOverlap } := by
  have ht := exec_jsr_eq_next_iff.mp hjsr
  have hsp := congrArg State.sp ht
  have hcfg := congrArg State.cfg ht
  have hmem := congrArg State.mem ht
  have hmarked : (s.markJsr (jsrOverlaps s)).PageOneRam := hram
  have hpulled : pull16 { t with pc := w } = (s.pc - 1#16, { t with pc := w, sp := s.sp }) :=
    pull16_of_pushed (s := s.markJsr (jsrOverlaps s)) hmarked hsp (hcfg.trans (push16_cfg _ _)) hmem
  rw [exec_rts_eq_next_iff, hpulled, BitVec.sub_add_cancel, ht, push16_eq_of_pageOneRam _ hmarked]
  rfl

/-- Settles O23: memory is that of the JSR, which writes at its two store addresses only. -/
theorem rtsUndoesJsr : Obligations.RtsUndoesJsr := by
  intro w target s t u hram hjsr hrts
  rw [exec_rts_of_exec_jsr hram hjsr] at hrts
  cases hrts
  refine ⟨rfl, fun b hb => (exec_writesAt hjsr).byteAt_of_notMem ?_⟩
  simpa [storeAddrs, Instr.mnemonic] using hb

end Sys2Proof.Machine
end

section
/-! PROOFS. The family 48_flag.md: the seven flag instructions (O24). -/

namespace Sys2Proof.Machine

/-- Settles O24: the rows by the table, and each instruction by the meaning its mnemonic runs, one
update of P. -/
theorem flagInstructionsWriteOneFlag : Obligations.FlagInstructionsWriteOneFlag :=
  ⟨hasRows_rows .CLC, hasRows_rows .CLD, hasRows_rows .CLI, hasRows_rows .CLV, hasRows_rows .SEC,
    hasRows_rows .SED, hasRows_rows .SEI, exec_clc rfl, exec_cld rfl, exec_cli rfl, exec_clv rfl,
    exec_sec rfl, exec_sed rfl, exec_sei rfl⟩

end Sys2Proof.Machine
end

section
/-! PROOFS. The family 49_system.md: what BRK (O25), NOP (O26) and RTI (O27) do, their rows, and RTI after BRK (O28). -/

namespace Sys2Proof.Machine

variable {s t u : State}

/-! ## BRK (R185) -/

theorem exec_brk_eq_next_iff : exec .brk s = .next t ↔
    t = enterHandler (s.pc + 1#16) true Config.irqVector s := by
  rw [exec_brk rfl, execBrk, Host.Outcome.next.injEq, eq_comm]

/-- Settles O25: the row by the table, and BRK as the shared entry; the vectors are not in page one, so
its pushes leave them alone. -/
theorem brkEntersTheHandler : Obligations.BrkEntersTheHandler := by
  refine ⟨hasRows_rows .BRK, fun s => ⟨_, pushFrame (s.pc + 1#16) true s,
    exec_brk_eq_next_iff.mpr rfl, pushFrame_eq s _ _, pushFrame_wroteBytes s _ _,
    enterHandler_eq s _ _ _, fun hl hh => ?plain⟩⟩
  case plain =>
    obtain ⟨hpc, -, -⟩ :=
      enterHandler_pc_plain s (s.pc + 1#16) true Config.irqVector (by decide) (by decide) hl hh
    exact hpc

/-! ## NOP (R186) -/

/-- Settles O26. -/
theorem nopOnlyTakesItsPlace : Obligations.NopOnlyTakesItsPlace :=
  ⟨hasRows_rows .NOP, exec_nop rfl⟩

/-! ## RTI (R187) -/

theorem exec_rti_eq_next_iff : exec .rti s = .next t ↔ t = returnFromHandler s := by
  rw [exec_rti rfl, execRti, Host.Outcome.next.injEq, eq_comm]

/-- Settles O27: the row by the table, and RTI as the shared return, in the order of its pulls. -/
theorem rtiRestoresPAndPc : Obligations.RtiRestoresPAndPc := by
  refine ⟨hasRows_rows .RTI, fun s => ?any, fun s v hv hplain => ?plain⟩
  case any => exact exec_rti_eq_next_iff.mpr (returnFromHandler_eq_pulls s).symm
  case plain =>
    subst hv
    refine exec_rti_eq_next_iff.mpr (returnFromHandler_plain ?_ ?_ ?_).symm
    all_goals exact hplain _ (by simp)

/-! ## RTI after BRK -/

/-- On a stack in ram an entry is not recorded, so that the record is as before. -/
theorem enterHandler_events_of_pageOneRam (ret : Addr) (b : Bool) (vector : Addr)
    (h : s.PageOneRam) : (enterHandler ret b vector s).events = s.events :=
  (enterHandler_events s ret b vector).trans (pushFrame_events_device ret b h).left

/-- RTI on the frame of an exception on a stack in ram gives back S, P and pc, whatever pc and P the
handler has left (R210). -/
theorem exec_rti_of_pushedFrame {ret w : Addr} {b : Bool} {p : Flags} (hram : s.PageOneRam)
    (hsp : t.sp = s.sp - 3#8) (hcfg : t.cfg = s.cfg) (hmem : t.mem = (pushFrame ret b s).mem) :
    exec .rti { t with pc := w, p := p } = .next { t with sp := s.sp, p := s.p, pc := ret } := by
  rw [exec_rti_eq_next_iff,
    returnFromHandler_of_pushedFrame (t := { t with pc := w, p := p }) hram hsp hcfg hmem]

/-- Settles O28: RTI finds the frame that BRK has pushed, and memory is that of the BRK, which writes
at its three store addresses only. -/
theorem rtiUndoesBrk : Obligations.RtiUndoesBrk := by
  intro w p s t u hram hbrk hrti
  have ht := exec_brk_eq_next_iff.mp hbrk
  rw [exec_rti_of_pushedFrame (ret := s.pc + 1#16) (b := true) hram (by rw [ht, enterHandler_sp])
    (by rw [ht, enterHandler_cfg]) (by rw [ht, enterHandler_mem])] at hrti
  cases hrti
  refine ⟨?registers, fun b hb => (exec_writesAt hbrk).byteAt_of_notMem ?stack⟩
  case registers =>
    rw [State.mk.injEq, ht]
    simp [enterHandler_events_of_pageOneRam _ _ _ hram]
  case stack => simpa [storeAddrs, Instr.mnemonic, entryAddrs] using hb

end Sys2Proof.Machine
end

section
/-! PROOFS. The family 60_exceptions.md, entry and return: an accepted interrupt enters its handler (O29), what the handler finds (O30), and RTI after it (O31). -/

namespace Sys2Proof.Machine

variable {s s0 t u : State}

/-! ## The two entries as one (R207) -/

/-- The vector an event takes (R43). -/
def Event.vector : Event → Addr
  | .nmi => Config.nmiVector
  | .irq => Config.irqVector

/-- The state an event's entry begins in: an NMI is no longer pending (R207). -/
def Event.acknowledge : Event → State → State
  | .nmi, s => { s with nmiPending := false }
  | .irq, s => s

theorem Event.acknowledge_eq (e : Event) (s : State) :
    e.acknowledge s = { s with nmiPending := (e.acknowledge s).nmiPending } := by
  cases e <;> rfl

@[simp] theorem Event.acknowledge_a (e : Event) (s : State) : (e.acknowledge s).a = s.a := by
  rw [e.acknowledge_eq]
@[simp] theorem Event.acknowledge_x (e : Event) (s : State) : (e.acknowledge s).x = s.x := by
  rw [e.acknowledge_eq]
@[simp] theorem Event.acknowledge_y (e : Event) (s : State) : (e.acknowledge s).y = s.y := by
  rw [e.acknowledge_eq]
@[simp] theorem Event.acknowledge_sp (e : Event) (s : State) : (e.acknowledge s).sp = s.sp := by
  rw [e.acknowledge_eq]
@[simp] theorem Event.acknowledge_p (e : Event) (s : State) : (e.acknowledge s).p = s.p := by
  rw [e.acknowledge_eq]
@[simp] theorem Event.acknowledge_cfg (e : Event) (s : State) : (e.acknowledge s).cfg = s.cfg := by
  rw [e.acknowledge_eq]

/-- The vectors are not in page one, so that no push reaches them (R42, R43). -/
theorem Event.vector_above_stack (e : Event) :
    512 ≤ e.vector.toNat ∧ 512 ≤ (e.vector + 1#16).toNat := by
  cases e <;> decide

/-- The entry of either event: the shared entry at its vector, with `i_poll` set as I is (R211). -/
theorem interruptEntry_eq (e : Event) (s : State) :
    interruptEntry e s =
      { enterHandler s.pc false e.vector (e.acknowledge s) with iPoll := true } := by
  have hi : (enterHandler s.pc false e.vector (e.acknowledge s)).p.i = true := by
    rw [enterHandler_p]
  rw [← hi]
  cases e <;> rfl

@[simp] theorem interruptEntry_sp (e : Event) (s : State) :
    (interruptEntry e s).sp = s.sp - 3#8 := by
  simp [interruptEntry_eq]
@[simp] theorem interruptEntry_cfg (e : Event) (s : State) :
    (interruptEntry e s).cfg = s.cfg := by
  simp [interruptEntry_eq]

theorem interruptEntry_mem (e : Event) (s : State) :
    (interruptEntry e s).mem = (pushFrame s.pc false (e.acknowledge s)).mem := by
  simp [interruptEntry_eq, enterHandler_mem]

/-- With an event accepted a step is its entry. -/
theorem step_of_interruptPoll_some {e : Event} (hresb : s.lines.resb = .high)
    (hpoll : interruptPoll s.lines.irqbLow (sampleLines s) = (some e, s0)) :
    step s = .next (interruptEntry e s0) := by
  simp only [step, hresb, hpoll]

/-- Settles O29: the entry is the shared one on the state that the boundary and the poll leave, which is
`s` but for the schedule, the lines and the free values drawn. -/
theorem acceptedInterruptsEnterTheirHandler : Obligations.AcceptedInterruptsEnterTheirHandler := by
  intro s s0 e hresb hpoll
  have hstep := step_of_interruptPoll_some hresb hpoll
  obtain ⟨n, rfl⟩ : ∃ n, s0 = { sampleLines s with draws := n } :=
    ⟨_, eq_of_interruptPoll_sampleLines hpoll⟩
  refine ⟨_, pushFrame s.pc false (e.acknowledge { sampleLines s with draws := n }), e.vector,
    ?vector, hstep, ?pushed, ?writes, ?entered, fun hl hh => ?target⟩
  case vector => cases e <;> rfl
  case pushed => rw [pushFrame_eq]; cases e <;> rfl
  case writes =>
    have hwrites := pushFrame_wroteBytes (e.acknowledge { sampleLines s with draws := n }) s.pc false
    cases e <;> exact hwrites.of_same rfl rfl rfl rfl rfl rfl rfl rfl
  case entered => rw [interruptEntry_eq, enterHandler_eq, e.acknowledge_eq]; rfl
  case target =>
    obtain ⟨hvector, hvector'⟩ := e.vector_above_stack
    obtain ⟨hpc, -, -⟩ := enterHandler_pc_plain (e.acknowledge { sampleLines s with draws := n }) s.pc
      false e.vector hvector hvector' (by cases e <;> exact hl) (by cases e <;> exact hh)
    rw [interruptEntry_eq]
    refine hpc.trans ?_
    rw [e.acknowledge_eq]; rfl

/-! ## What the handler finds (R208) -/

/-- What a handler finds: above S the frame of an exception with the given return address and B bit,
I set, the other flags and A, X, Y as they were. -/
structure FindsFrame (ret : Addr) (b : Bool) (s t : State) : Prop where
  status : t.byteAt (stackAddr (t.sp + 1#8)) = packP b s.p
  low : t.byteAt (stackAddr (t.sp + 2#8)) = lowByte ret
  high : t.byteAt (stackAddr (t.sp + 3#8)) = highByte ret
  a_eq : t.a = s.a
  x_eq : t.x = s.x
  y_eq : t.y = s.y
  p_eq : t.p = { s.p with i := true }

/-- After the shared entry on a stack in ram the handler finds the frame of its arguments. -/
theorem enterHandler_findsFrame (ret : Addr) (b : Bool) (vector : Addr) (h : s.PageOneRam) :
    FindsFrame ret b s (enterHandler ret b vector s) := by
  obtain ⟨hstatus, hlow, hhigh⟩ :=
    byteAt_of_pushedFrame h (enterHandler_sp s ret b vector) (enterHandler_mem s ret b vector)
  exact ⟨hstatus, hlow, hhigh, enterHandler_a s ret b vector, enterHandler_x s ret b vector,
    enterHandler_y s ret b vector, enterHandler_p s ret b vector⟩

theorem FindsFrame.of_acknowledge {ret : Addr} {b : Bool} {e : Event}
    (h : FindsFrame ret b (e.acknowledge s) t) : FindsFrame ret b s t where
  status := by rw [h.status, e.acknowledge_p]
  low := h.low
  high := h.high
  a_eq := by rw [h.a_eq, e.acknowledge_a]
  x_eq := by rw [h.x_eq, e.acknowledge_x]
  y_eq := by rw [h.y_eq, e.acknowledge_y]
  p_eq := by rw [h.p_eq, e.acknowledge_p]

theorem FindsFrame.withIPoll {ret : Addr} {b : Bool} (h : FindsFrame ret b s t) (v : Bool) :
    FindsFrame ret b s { t with iPoll := v } :=
  ⟨h.status, h.low, h.high, h.a_eq, h.x_eq, h.y_eq, h.p_eq⟩

theorem interruptEntry_findsFrame (e : Event) (h : s.PageOneRam) :
    FindsFrame s.pc false s (interruptEntry e s) := by
  rw [interruptEntry_eq]
  have hram : (e.acknowledge s).PageOneRam := h.congr (e.acknowledge_cfg s)
  exact (enterHandler_findsFrame s.pc false e.vector hram).of_acknowledge.withIPoll true

/-- The frame in the words of R208: of the stacked P bit 5 is 1 and bit 4 is the B bit. -/
theorem FindsFrame.bits {ret : Addr} {b : Bool} (h : FindsFrame ret b s t) :
    t.byteAt (stackAddr (t.sp + 1#8)) = packP b s.p ∧
      (t.byteAt (stackAddr (t.sp + 1#8))).getLsbD 5 = true ∧
      (t.byteAt (stackAddr (t.sp + 1#8))).getLsbD 4 = b ∧
      t.byteAt (stackAddr (t.sp + 2#8)) = lowByte ret ∧
      t.byteAt (stackAddr (t.sp + 3#8)) = highByte ret ∧ t.p.i = true ∧
      t.a = s.a ∧ t.x = s.x ∧ t.y = s.y ∧ t.p = { s.p with i := true } := by
  refine ⟨h.status, ?bit5, ?bit4, h.low, h.high, by rw [h.p_eq], h.a_eq, h.x_eq, h.y_eq, h.p_eq⟩
  case bit5 => rw [h.status, packP_getLsbD]; rfl
  case bit4 => rw [h.status, packP_getLsbD]; rfl

/-- Settles O30: the entry of BRK and of either event is the shared one. -/
theorem handlerFindsTheStackedState : Obligations.HandlerFindsTheStackedState := by
  refine ⟨fun s t hram hbrk => ?brk, fun e s t hram ht => ?interrupt,
    fun ret vector b s t hram ht => ?shared⟩
  case brk =>
    rw [exec_brk_eq_next_iff.mp hbrk]
    exact (enterHandler_findsFrame _ true _ hram).bits
  case interrupt =>
    rw [ht]
    exact (interruptEntry_findsFrame e hram).bits
  case shared =>
    rw [ht]
    exact (enterHandler_findsFrame ret b vector hram).bits

/-! ## RTI after an entry (R210) -/

/-- RTI finds the frame that the entry of an event has pushed. -/
theorem exec_rti_of_interruptEntry {e : Event} {w : Addr} {p : Flags} (hram : s.PageOneRam)
    (ht : t = interruptEntry e s) :
    exec .rti { t with pc := w, p := p } = .next { t with sp := s.sp, p := s.p, pc := s.pc } := by
  have hsp : t.sp = (e.acknowledge s).sp - 3#8 := by simp [ht]
  have hcfg : t.cfg = (e.acknowledge s).cfg := by simp [ht]
  have hmem : t.mem = (pushFrame s.pc false (e.acknowledge s)).mem := by
    rw [ht, interruptEntry_mem]
  have hrti := exec_rti_of_pushedFrame (w := w) (p := p) (hram.congr (e.acknowledge_cfg s)) hsp hcfg
    hmem
  rwa [e.acknowledge_sp, e.acknowledge_p] at hrti

/-- Settles O31: memory is that of the entry, which writes at its three addresses only. -/
theorem rtiUndoesInterruptEntry : Obligations.RtiUndoesInterruptEntry := by
  intro e w p s t u hram ht hrti
  rw [exec_rti_of_interruptEntry hram ht] at hrti
  cases hrti
  have hfound : FindsFrame s.pc false s t := ht ▸ interruptEntry_findsFrame e hram
  have hwrites : WritesAt (entryAddrs s) s t := ht ▸ interruptEntry_writesAt e s
  refine ⟨rfl, hfound.a_eq, hfound.x_eq, hfound.y_eq, fun b hb => hwrites.byteAt_of_notMem ?_⟩
  simpa [entryAddrs] using hb

end Sys2Proof.Machine
end

section
/-! PROOFS. The family 60_exceptions.md, the lines and the poll: edges of NMIB (O33), the order of the events and the mask of IRQ (O32), and `i_poll` (O34). -/

namespace Sys2Proof.Machine

variable {i : Instr} {s s0 s1 t : State}

/-! ## NMIB (R204) -/

/-- A falling edge is a high level directly followed by a low one, somewhere in the run of levels. -/
theorem fallingEdge_iff_infix (low : Bool) (levels : List Bool) :
    fallingEdge low levels = true ↔ [false, true] <:+: low :: levels := by
  induction levels generalizing low with
  | nil => simp [fallingEdge, List.infix_cons_iff]
  | cons l rest ih =>
    rw [fallingEdge, Bool.or_eq_true, Bool.and_eq_true, Bool.not_eq_true', ih l,
      List.infix_cons_iff (a := low), List.cons_prefix_cons, List.cons_prefix_cons]
    simp [eq_comm]

/-- A line held low makes no falling edge. -/
theorem fallingEdge_replicate (n : Nat) : fallingEdge true (List.replicate n true) = false := by
  induction n with
  | zero => rfl
  | succ n ih => rwa [List.replicate_succ, fallingEdge]

theorem lastLevel_eq_getLast? (low : Bool) (levels : List Bool) :
    some (lastLevel low levels) = (low :: levels).getLast? := by
  induction levels generalizing low with
  | nil => rfl
  | cons l rest ih => rw [lastLevel, ih, List.getLast?_cons_cons]

/-- Settles O33: a boundary samples the levels, and no instruction touches the latch. -/
theorem nmiIsLatchedOnFallingEdges : Obligations.NmiIsLatchedOnFallingEdges := by
  refine ⟨fun low levels => ?edge, fallingEdge_replicate,
    fun s => ⟨rfl, lastLevel_eq_getLast? s.nmibLow s.lines.nmibLevels⟩,
    fun i s t h => (exec_effect h).nmiPending_eq⟩
  case edge =>
    rw [fallingEdge_iff_infix]
    simp only [List.IsInfix, eq_comm]

/-! ## The poll (R206, R211) -/

theorem irqUnmasked_none (h : s.cfg.iFlagLatency = .none) : irqUnmasked s = (!s.p.i, s) := by
  simp only [irqUnmasked, h]

theorem irqUnmasked_oneInstruction (h : s.cfg.iFlagLatency = .oneInstruction) :
    irqUnmasked s = (!s.iPoll, s) := by
  simp only [irqUnmasked, h]

/-- Where both readings are admitted and agree, they decide. -/
theorem irqUnmasked_bothAdmitted (h : s.cfg.iFlagLatency = .bothAdmitted) (hagree : s.iPoll = s.p.i) :
    irqUnmasked s = (!s.p.i, s) := by
  simp only [irqUnmasked, h, hagree, if_true]

/-- With both readings admitted an IRQ is let through when both masks are clear. -/
theorem irqUnmasked_of_clear (h : s.cfg.iFlagLatency = .bothAdmitted) (hpoll : s.iPoll = false)
    (hi : s.p.i = false) : (irqUnmasked s).1 = true := by
  rw [irqUnmasked_bothAdmitted h (hpoll.trans hi.symm), hi]; rfl

/-- With both readings admitted an IRQ is let through only when one of the masks is clear. -/
theorem clear_of_irqUnmasked (h : s.cfg.iFlagLatency = .bothAdmitted)
    (hu : (irqUnmasked s).1 = true) : s.iPoll = false ∨ s.p.i = false := by
  by_cases hagree : s.iPoll = s.p.i
  · rw [irqUnmasked_bothAdmitted h hagree] at hu
    exact .inr (by simpa using hu)
  · cases hpoll : s.iPoll
    · exact .inl rfl
    · rw [hpoll] at hagree
      exact .inr (by simpa using hagree)

theorem interruptPoll_nmi (low : Bool) (h : s.nmiPending = true) :
    interruptPoll low s = (some .nmi, s) := by
  simp only [interruptPoll, h, if_true]

/-- With no NMI waiting and IRQB low the mask decides. -/
theorem interruptPoll_irqLow (h : s.nmiPending = false) :
    interruptPoll true s = (if (irqUnmasked s).1 then some .irq else none, (irqUnmasked s).2) := by
  simp [interruptPoll, h]

theorem interruptPoll_irqLow_of_mask {mask : Bool} (h : s.nmiPending = false)
    (hmask : irqUnmasked s = (!mask, s)) :
    interruptPoll true s = (if mask then none else some .irq, s) := by
  rw [interruptPoll_irqLow h, hmask]
  cases mask <;> rfl

/-- With RESB asserted at the boundary a step is the reset (R205). -/
theorem step_of_resb_low (hresb : s.lines.resb = .low) :
    step s = .next (resetSequence (sampleLines s)) := by
  simp only [step, hresb]

/-- Settles O32: the poll by its three branches, and the mask by the latency. -/
theorem pollOrdersNmiBeforeIrqAndMasksIrq : Obligations.PollOrdersNmiBeforeIrqAndMasksIrq := by
  refine ⟨fun s hresb => ?reset, fun s s0 e hresb hpoll => ?entry, fun low s => interruptPoll_nmi low,
    interruptPoll_quiet, fun s hn hlatency => ?none, fun s hn hlatency => ?oneInstruction,
    fun s hn hlatency => ?bothAdmitted⟩
  case reset => exact step_of_resb_low hresb
  case entry =>
    exact ⟨step_of_interruptPoll_some hresb hpoll, congrArg Flags.i (interruptEntry_p s0 e)⟩
  case none => exact interruptPoll_irqLow_of_mask hn (irqUnmasked_none hlatency)
  case oneInstruction => exact interruptPoll_irqLow_of_mask hn (irqUnmasked_oneInstruction hlatency)
  case bothAdmitted =>
    have hirq : (interruptPoll true s).1 = some .irq ↔ (irqUnmasked s).1 = true := by
      simp [interruptPoll_irqLow hn]
    rw [hirq]
    refine ⟨irqUnmasked_of_clear hlatency, clear_of_irqUnmasked hlatency, ?_⟩
    simp only [interruptPoll_irqLow hn]
    cases (irqUnmasked s).1 <;> simp

/-! ## `i_poll` (R211) -/

/-- A poll that accepts nothing finds no NMI waiting. -/
theorem nmiPending_of_interruptPoll_none {b : Bool} (h : interruptPoll b s = (none, s0)) :
    s.nmiPending = false := by
  cases hn : s.nmiPending
  · rfl
  · rw [interruptPoll_nmi b hn] at h
    cases h

theorem delaysPoll_iff (i : Instr) : delaysPoll i = true ↔
    i.mnemonic = .CLI ∨ i.mnemonic = .SEI ∨ i.mnemonic = .PLP := by
  simp [delaysPoll, or_assoc]

/-- What the instruction of a step begins with: neither the boundary nor the poll nor the fetch has
changed P or the parameters, and no NMI waits. -/
theorem fetched_eq (hpoll : interruptPoll s.lines.irqbLow (sampleLines s) = (none, s0))
    (hfetch : fetch s0 = .ok (i, s1)) :
    s1.p = s.p ∧ s1.cfg = s.cfg ∧ s1.nmiPending = false := by
  have hn := nmiPending_of_interruptPoll_none hpoll
  rw [fetch_ok s0 hfetch, eq_of_interruptPoll_sampleLines hpoll]
  exact ⟨rfl, rfl, hn⟩

/-- A step that fetches an instruction and answers a next state has run it and set `i_poll`. -/
theorem exec_of_step (hresb : s.lines.resb = .high)
    (hpoll : interruptPoll s.lines.irqbLow (sampleLines s) = (none, s0))
    (hfetch : fetch s0 = .ok (i, s1)) (hstep : step s = .next t) :
    ∃ u, exec i s1 = .next u ∧ t = afterInstr i s.p.i u := by
  obtain ⟨hp, -, -⟩ := fetched_eq hpoll hfetch
  rw [step_of_fetch_ok hresb hpoll hfetch, hp] at hstep
  cases hx : exec i s1 with
  | next u => rw [hx] at hstep; cases hstep; exact ⟨u, rfl, rfl⟩
  | fault f => rw [hx] at hstep; cases hstep
  | refused r => rw [hx] at hstep; cases hstep

/-- After a step whose instruction delays the poll and has written `b` to I, P.I is `b` and `i_poll` is
the I from before it; so with the latency of the chip the next poll goes by the old I. -/
theorem poll_after_delayed {b : Bool} (hresb : s.lines.resb = .high)
    (hpoll : interruptPoll s.lines.irqbLow (sampleLines s) = (none, s0))
    (hfetch : fetch s0 = .ok (i, s1)) (hstep : step s = .next t) (hdelays : delaysPoll i = true)
    (hwrites : ∀ u, exec i s1 = .next u → u.p.i = b)
    (hlatency : t.cfg.iFlagLatency = .oneInstruction) :
    t.p.i = b ∧ t.nmiPending = false ∧
      (interruptPoll true t).1 = if s.p.i then none else some .irq := by
  obtain ⟨u, hexec, ht⟩ := exec_of_step hresb hpoll hfetch hstep
  obtain ⟨-, -, hfetched⟩ := fetched_eq hpoll hfetch
  have hi : t.p.i = b := by rw [ht]; exact hwrites u hexec
  have hn : t.nmiPending = false := by rw [ht]; exact (exec_effect hexec).nmiPending_eq.trans hfetched
  have hold : t.iPoll = s.p.i := by rw [ht]; exact if_pos hdelays
  have hmask := irqUnmasked_oneInstruction hlatency
  rw [hold] at hmask
  exact ⟨hi, hn, congrArg Prod.fst (interruptPoll_irqLow_of_mask hn hmask)⟩

/-- Settles O34. -/
theorem iPollLagsOneInstruction : Obligations.IPollLagsOneInstruction := by
  refine ⟨fun s s0 s1 t i hresb hpoll hfetch hstep => ?any,
    fun s s0 s1 t hresb _ hpoll hfetch hstep hlatency hi => ?cli,
    fun s s0 s1 t hresb _ hpoll hfetch hstep hlatency hi => ?sei,
    fun s t hresb hstep => ?reset, fun s s0 t e hresb hpoll hstep => ?entry,
    fun s h => congrArg Prod.fst (irqUnmasked_oneInstruction h),
    fun s h => congrArg Prod.fst (irqUnmasked_none h),
    fun s h => ⟨irqUnmasked_of_clear h, clear_of_irqUnmasked h⟩⟩
  case any =>
    obtain ⟨u, -, rfl⟩ := exec_of_step hresb hpoll hfetch hstep
    simp only [← delaysPoll_iff]
    rfl
  case cli =>
    have h := poll_after_delayed hresb hpoll hfetch hstep rfl
      (fun u hu => by cases hu; rfl) hlatency
    rwa [hi] at h
  case sei =>
    have h := poll_after_delayed hresb hpoll hfetch hstep rfl
      (fun u hu => by cases hu; rfl) hlatency
    rwa [hi] at h
  case reset =>
    cases step_kind hstep with
    | reset => rw [resetSequence_iPoll, resetSequence_p_i]
    | cut _ hc =>
      obtain ⟨e, s0, -, rfl⟩ | ⟨s0, i, s1, -, -, rfl⟩ := resetInside_cases _ _ hc
      · rw [cutShort_iPoll, cutShort_p_i]
      · rw [cutShort_iPoll, cutShort_p_i]
    | entry hr | instruction hr => exact absurd hr hresb
  case entry =>
    rw [step_of_interruptPoll_some hresb hpoll] at hstep
    cases hstep
    rw [interruptEntry_iPoll, interruptEntry_p]

end Sys2Proof.Machine
end

section
/-! PROOFS. The family 60_exceptions.md, the stops: every instruction completes but for the decimal refusal (O44), and a step stops only there and on an unassigned opcode (O45). -/

namespace Sys2Proof

/-! ## An assigned opcode decodes (R60, R66) -/

/-- An opcode with a length decodes with any operand bytes that make it up. -/
theorem decode_of_opcodeLength {op : Byte} {operand : List Byte}
    (h : opcodeLength op = some (operand.length + 1)) : ∃ i, decode (op :: operand) = .ok (i, []) := by
  obtain ⟨f, hrow, hlength⟩ := Option.map_eq_some_iff.mp h
  cases f with
  | none i =>
    obtain rfl : operand = [] := List.eq_nil_of_length_eq_zero (Nat.succ.inj hlength).symm
    exact ⟨i, decode_none hrow []⟩
  | byte f =>
    obtain ⟨b, rfl⟩ := List.length_eq_one_iff.mp (Nat.succ.inj hlength).symm
    exact ⟨f b, decode_byte hrow b []⟩
  | word f =>
    obtain ⟨b1, b2, rfl⟩ := List.length_eq_two.mp (Nat.succ.inj hlength).symm
    exact ⟨f (joinBytes b2 b1), by simp only [decode, hrow]⟩

/-- An instruction has its opcode byte at least. -/
theorem opcodeLength_pos {op : Byte} {n : Nat} (h : opcodeLength op = some n) : 0 < n := by
  obtain ⟨f, -, rfl⟩ := Option.map_eq_some_iff.mp h
  cases f <;> exact Nat.succ_pos _

end Sys2Proof

namespace Sys2Proof.Machine

variable {i : Instr} {s s0 t : State}

/-! ## Instructions (R201) -/

/-- ADC and SBC complete, but for decimal mode under the policy that refuses it. -/
theorem addSub_completes (binary decimal : Byte → Byte → Bool → AluResult) (o : Src) (s : State) :
    (∃ t, addSub binary decimal o s = .next t) ∨
      s.p.d = true ∧ s.cfg.decimalPolicy = .refuse ∧
        addSub binary decimal o s = .refused .decimal := by
  cases hd : s.p.d with
  | false => exact .inl ⟨_, addSub_of_binary binary decimal o hd⟩
  | true =>
    cases hpol : s.cfg.decimalPolicy with
    | nmosAlgorithm => exact .inl ⟨_, addSub_of_decimal binary decimal o hd hpol⟩
    | refuse => exact .inr ⟨rfl, rfl, addSub_of_refuse binary decimal o hd hpol⟩

/-- Settles O44, by the meaning each mnemonic runs: all but the shared one of ADC and SBC answer a next
state by definition. -/
theorem everyInstructionCompletes : Obligations.EveryInstructionCompletes := by
  intro i s
  have form := execForm i s
  rw [ExecForm] at form
  cases hm : i.mnemonic <;> rw [hm] at form
  case ADC | SBC =>
    obtain ⟨o, -, hexec⟩ := form
    rw [hexec]
    refine (addSub_completes _ _ o s).imp_right fun hrefused => ⟨?_, hrefused⟩
    simp
  case LDA | LDX | LDY | AND | EOR | ORA | CMP | CPX | CPY | STA | STX | STY | BIT | DEC | INC |
      ASL | LSR | ROL | ROR | BCC | BCS | BEQ | BMI | BNE | BPL | BVC | BVS =>
    obtain ⟨o, -, hexec⟩ := form
    exact .inl ⟨_, hexec⟩
  case JMP =>
    obtain ⟨w, -, hexec⟩ | ⟨w, -, hexec⟩ := form
    · exact .inl ⟨_, hexec⟩
    · exact .inl ⟨_, hexec⟩
  case JSR =>
    obtain ⟨w, -, hexec⟩ := form
    exact .inl ⟨_, hexec⟩
  all_goals exact .inl ⟨_, form⟩

theorem exec_ne_fault (i : Instr) (s : State) (f : Fault) : exec i s ≠ .fault f := by
  intro h
  obtain ⟨t, hnext⟩ | ⟨-, -, -, hrefused⟩ := everyInstructionCompletes i s
  · rw [hnext] at h; cases h
  · rw [hrefused] at h; cases h

/-- The only refusal of an instruction is the decimal one. -/
theorem decimal_of_exec_refused {r : Refusal} (h : exec i s = .refused r) :
    r = .decimal ∧ s.p.d = true ∧ s.cfg.decimalPolicy = .refuse := by
  obtain ⟨t, hnext⟩ | ⟨-, hd, hpol, hrefused⟩ := everyInstructionCompletes i s
  · rw [hnext] at h; cases h
  · rw [hrefused] at h; cases h; exact ⟨rfl, hd, hpol⟩

/-! ## Steps (R10, R201) -/

/-- A fetch fails only on an opcode byte without a row. -/
theorem opcodeLength_of_fetch_error {f : Fault} (h : fetch s = .error f) :
    opcodeLength (s.peek s.pc) = none := by
  cases hop : opcodeLength (s.peek s.pc) with
  | none => rfl
  | some n =>
    obtain ⟨k, rfl⟩ := Nat.exists_eq_succ_of_ne_zero (opcodeLength_pos hop).ne'
    obtain ⟨i, hdec⟩ := decode_of_opcodeLength (op := s.peek s.pc)
      (operand := (readBytes k (s.pc + 1#16) (s.touch s.pc)).1) (by rw [readBytes_length, hop])
    rw [fetch_of_decode_readBytes (n := k + 1) hdec] at h
    cases h

/-- Where RESB falls inside, a step is what the reset inside it gives (R205). -/
theorem step_of_resetInside_ok (hresb : s.lines.resb = .fallsInside)
    (h : resetInside s.lines.irqbLow (sampleLines s) = .ok t) : step s = .next t := by
  simp only [step, hresb, h]

theorem step_of_resetInside_error {f : Fault} (hresb : s.lines.resb = .fallsInside)
    (h : resetInside s.lines.irqbLow (sampleLines s) = .error f) : step s = .fault f := by
  simp only [step, hresb, h]

/-- A reset inside a step that fails has failed to fetch. -/
theorem fetch_error_of_resetInside_error {b : Bool} {f : Fault} (h : resetInside b s = .error f) :
    ∃ s0, interruptPoll b s = (none, s0) ∧ fetch s0 = .error f := by
  unfold resetInside at h
  rcases hpoll : interruptPoll b s with ⟨_ | e, s0⟩ <;> simp only [hpoll] at h
  case none =>
    split at h
    case h_1 hfetch => cases h; exact ⟨s0, rfl, hfetch⟩
    case h_2 => cases h
  case some => cases h

/-- A step that answers no next state has accepted no event; it has failed to fetch, or it has run the
instruction fetched. -/
theorem fetch_of_step_stops (h : ∀ t, step s ≠ .next t) :
    ∃ s0, interruptPoll s.lines.irqbLow (sampleLines s) = (none, s0) ∧
      ((∃ f, fetch s0 = .error f ∧ step s = .fault f) ∨
        ∃ i s1, fetch s0 = .ok (i, s1) ∧ step s = afterExec i s1.p.i (exec i s1)) := by
  cases hresb : s.lines.resb with
  | low => exact absurd (step_of_resb_low hresb) (h _)
  | fallsInside =>
    cases hinside : resetInside s.lines.irqbLow (sampleLines s) with
    | ok t => exact absurd (step_of_resetInside_ok hresb hinside) (h t)
    | error f =>
      obtain ⟨s0, hpoll, hfetch⟩ := fetch_error_of_resetInside_error hinside
      exact ⟨s0, hpoll, .inl ⟨f, hfetch, step_of_resetInside_error hresb hinside⟩⟩
  | high =>
    rcases hpoll : interruptPoll s.lines.irqbLow (sampleLines s) with ⟨_ | e, s0⟩
    case some => exact absurd (step_of_interruptPoll_some hresb hpoll) (h _)
    case none =>
      refine ⟨s0, rfl, ?_⟩
      cases hfetch : fetch s0 with
      | error f => exact .inl ⟨f, rfl, step_of_fetch_error hresb hpoll hfetch⟩
      | ok fetched => exact .inr ⟨_, _, rfl, step_of_fetch_ok hresb hpoll hfetch⟩

theorem fetch_error_of_step_fault {f : Fault} (h : step s = .fault f) :
    ∃ s0, interruptPoll s.lines.irqbLow (sampleLines s) = (none, s0) ∧ fetch s0 = .error f := by
  obtain ⟨s0, hpoll, ⟨g, hfetch, hstep⟩ | ⟨i, s1, -, hstep⟩⟩ :=
    fetch_of_step_stops (s := s) (by simp [h])
  · cases h.symm.trans hstep
    exact ⟨s0, hpoll, hfetch⟩
  · rw [h] at hstep
    cases hexec : exec i s1 with
    | fault g => exact absurd hexec (exec_ne_fault i s1 g)
    | next | refused => rw [hexec] at hstep; cases hstep

theorem exec_refused_of_step_refused {r : Refusal} (h : step s = .refused r) :
    ∃ i s0 s1, interruptPoll s.lines.irqbLow (sampleLines s) = (none, s0) ∧
      fetch s0 = .ok (i, s1) ∧ exec i s1 = .refused r := by
  obtain ⟨s0, hpoll, ⟨g, -, hstep⟩ | ⟨i, s1, hfetch, hstep⟩⟩ :=
    fetch_of_step_stops (s := s) (by simp [h])
  · cases h.symm.trans hstep
  · rw [h] at hstep
    cases hexec : exec i s1 with
    | refused q => rw [hexec] at hstep; cases hstep; exact ⟨i, s0, s1, hpoll, hfetch, hexec⟩
    | next | fault => rw [hexec] at hstep; cases hstep

/-- Settles O45: the state fetched in has the pc, P and the parameters of `s`. -/
theorem stepsStopOnlyWhereTheSpecSays : Obligations.StepsStopOnlyWhereTheSpecSays := by
  refine ⟨fun s f h => ?fault, fun s r h => ?refused⟩
  case fault =>
    obtain ⟨s0, hpoll, hfetch⟩ := fetch_error_of_step_fault h
    have hpc : s0.pc = s.pc := by rw [eq_of_interruptPoll_sampleLines hpoll]; rfl
    rw [← hpc]
    exact ⟨_, fetch_error s0 hfetch, opcodeLength_of_fetch_error hfetch⟩
  case refused =>
    obtain ⟨i, s0, s1, hpoll, hfetch, hexec⟩ := exec_refused_of_step_refused h
    obtain ⟨hp, hcfg, -⟩ := fetched_eq hpoll hfetch
    rw [← hp, ← hcfg]
    exact decimal_of_exec_refused hexec

end Sys2Proof.Machine
end

section
/-! PROOFS. Reset: the step with RESB asserted at its boundary (O41), of the family 70_reset_and_hazards.md, and the reset inside an instruction or an entry (O58), of the family 60_exceptions.md. -/

namespace Sys2Proof.Machine

variable {i : Instr} {s s0 s1 t : State}

/-! ## At a boundary (R230) -/

/-- A reset ends in the read of its vector, on a state that has the map, memory and devices of `s` and
has drawn the five free values of the registers. -/
theorem resetSequence_eq_read16 (s : State) :
    ∃ u : State, u.cfg = s.cfg ∧ u.mem = s.mem ∧ u.draws = s.draws + 5 ∧ u.device = s.device ∧
      resetSequence s =
        (read16 Config.resetVector u).2.setPc (read16 Config.resetVector u).1 := by
  refine ⟨_, ?_, ?_, ?_, ?_, rfl⟩ <;> rfl

/-- Where a reset goes, and what it leaves of the devices: its vector is read after the five free values
of its registers, by a read that sees the map, memory, the counter and the devices' state alone. -/
theorem resetSequence_reads_vector (hcfg : t.cfg = s.cfg) (hmem : t.mem = s.mem)
    (hdraws : t.draws = s.draws + 5) (hdevice : t.device = s.device) :
    (resetSequence s).pc = (read16 Config.resetVector t).1 ∧
      (resetSequence s).device = (read16 Config.resetVector t).2.device := by
  obtain ⟨u, hcfg', hmem', hdraws', hdevice', hreset⟩ := resetSequence_eq_read16 s
  have hbyte := State.byteAt_congr (hmem'.trans hmem.symm)
  obtain ⟨hpc, -, hdevice⟩ := read16_congr (a := Config.resetVector) (hcfg'.trans hcfg.symm)
    (hbyte _) (hbyte _) (hdraws'.trans hdraws.symm) (hdevice'.trans hdevice.symm)
  rw [hreset, State.setPc_pc, State.setPc_device]
  exact ⟨hpc, hdevice⟩

/-- Settles O41: the boundary changes nothing that the reset reads. -/
theorem resetStepTakesTheVectorAndWritesNothing :
    Obligations.ResetStepTakesTheVectorAndWritesNothing := by
  intro s hresb
  refine ⟨_, step_of_resb_low hresb, ?frame, resetSequence_p_i _,
    ⟨s.draws + 5, Nat.le_add_right _ _, ?vector⟩, ?plain⟩
  case frame => rw [State.mk.injEq]; simp; rfl
  case vector => exact resetSequence_reads_vector (s := sampleLines s) rfl rfl rfl rfl
  case plain => exact resetSequence_pc_plain (sampleLines s)

/-! ## Inside a step (R205, U8) -/

/-- What begins in a step that a reset cuts short: the entry of the event accepted, or the instruction
fetched; the state it begins in, and the addresses it writes. -/
def Begins (s s0 s1 : State) (addrs : List Addr) : Prop :=
  (∃ e : Event, interruptPoll s.lines.irqbLow (sampleLines s) = (some e, s0) ∧ s1 = s0 ∧
    addrs = entryAddrs s0) ∨
  ∃ i : Instr, interruptPoll s.lines.irqbLow (sampleLines s) = (none, s0) ∧
    fetch s0 = .ok (i, s1) ∧ addrs = storeAddrs i s1

/-- A step inside which RESB falls is what begins in it, cut at its own writes. -/
theorem Begins.step_eq {addrs : List Addr} (h : Begins s s0 s1 addrs)
    (hresb : s.lines.resb = .fallsInside) : step s = .next (cutShort addrs s1) := by
  refine step_of_resetInside_ok hresb ?_
  obtain ⟨e, hpoll, rfl, rfl⟩ | ⟨i, hpoll, hfetch, rfl⟩ := h
  · simp only [resetInside, hpoll]
  · simp only [resetInside, hpoll, hfetch]

/-- Before it is cut short only the boundary, the poll and the fetch have happened: these read, and use
up one entry of the schedule. -/
theorem Begins.readsOnly {addrs : List Addr} (h : Begins s s0 s1 addrs) :
    ReadsOnly s s1 ∧ s1.schedule = s.schedule.tail := by
  have polled : ∀ {o}, interruptPoll s.lines.irqbLow (sampleLines s) = (o, s0) →
      ReadsOnly s s0 ∧ s0.schedule = s.schedule.tail := fun hpoll =>
    ⟨(sampleLines_readsOnly s).trans (interruptPoll_readsOnly hpoll),
      by rw [eq_of_interruptPoll_sampleLines hpoll]; rfl⟩
  obtain ⟨e, hpoll, rfl, -⟩ | ⟨i, hpoll, hfetch, -⟩ := h
  · exact polled hpoll
  · obtain ⟨hreads, hschedule⟩ := polled hpoll
    exact ⟨hreads.trans (fetch_readsOnly hfetch), by rw [fetch_ok s0 hfetch, hschedule]⟩

/-- Settles O58: what the open writes leave of memory and of the record, and then the reset. -/
theorem resetInsideAStepOpensOnlyItsWrites : Obligations.ResetInsideAStepOpensOnlyItsWrites := by
  intro s s0 s1 addrs hresb hbegins
  have hbegins : Begins s s0 s1 addrs := hbegins
  obtain ⟨⟨hmem, hevents, hcfg, -⟩, hschedule⟩ := hbegins.readsOnly
  have hkind := State.kindAt_congr hcfg
  obtain ⟨written, hwritten, haddrs⟩ := cutWrites_events s1 addrs
  refine ⟨_, written, hbegins.step_eq hresb, cutShort_p_i s1 addrs, cutShort_nmiPending s1 addrs,
    cutShort_iPoll s1 addrs, ?cfg, ?schedule, fun b hb => ?bytes, ?events, haddrs, fun hl hh => ?plain⟩
  case cfg => rw [cutShort_cfg, hcfg]
  case schedule => rw [cutShort_schedule, hschedule]
  case bytes =>
    rw [State.byteAt_congr (cutShort_mem s1 addrs), cutWrites_other s1 hb, State.byteAt_congr hmem]
  case events => rw [cutShort_events, hwritten, hevents]
  case plain =>
    rw [State.Plain, ← hkind] at hl hh
    exact cutShort_pc_plain s1 addrs hl hh

end Sys2Proof.Machine
end

section
/-! PROOFS. Runs, of the family 70_reset_and_hazards.md: a run ends at the first boundary where its stop condition holds (O57), and a JMP to itself ends or never ends it (O55). -/

namespace Sys2Proof.Machine

variable {s t : State} {stop : StopCondition}

/-! ## Steps and runs (R233) -/

theorem runSteps_succ_eq_next_iff {n : Nat} :
    runSteps (n + 1) s = .next t ↔ ∃ u, step s = .next u ∧ runSteps n u = .next t := by
  rw [runSteps]
  cases step s <;> simp

/-- `n` steps from `s` lead to `t`, and at no boundary before it has the condition held. -/
def RunsTo (stop : StopCondition) (n : Nat) (s t : State) : Prop :=
  runSteps n s = .next t ∧ ∀ k < n, ∀ u : State, runSteps k s = .next u → stop u = false

theorem runsTo_zero_iff : RunsTo stop 0 s t ↔ s = t := by
  simp [RunsTo, runSteps]

/-- A run of one more step begins with a step from a boundary where the condition does not hold. -/
theorem runsTo_succ_iff {n : Nat} : RunsTo stop (n + 1) s t ↔
    stop s = false ∧ ∃ u, step s = .next u ∧ RunsTo stop n u t := by
  constructor
  · rintro ⟨hruns, hbefore⟩
    obtain ⟨u, hstep, hruns⟩ := runSteps_succ_eq_next_iff.mp hruns
    refine ⟨hbefore 0 (Nat.succ_pos n) s rfl, u, hstep, hruns, fun k hk v hv => ?_⟩
    exact hbefore (k + 1) (Nat.succ_lt_succ hk) v (runSteps_succ_eq_next_iff.mpr ⟨u, hstep, hv⟩)
  · rintro ⟨hs, u, hstep, hruns, hbefore⟩
    refine ⟨runSteps_succ_eq_next_iff.mpr ⟨u, hstep, hruns⟩, fun k hk v hv => ?_⟩
    cases k with
    | zero => cases hv; exact hs
    | succ k =>
      obtain ⟨u', hstep', hv⟩ := runSteps_succ_eq_next_iff.mp hv
      cases hstep.symm.trans hstep'
      exact hbefore k (Nat.lt_of_succ_lt_succ hk) v hv

/-- At a boundary where the condition holds a run ends. -/
theorem runUntil_of_stop (fuel : Nat) (h : stop s = true) : runUntil stop fuel s = .stopped s := by
  cases fuel <;> rw [runUntil, if_pos h]

/-- With no steps left a run has run out at any other boundary. -/
theorem runUntil_zero (h : stop s = false) : runUntil stop 0 s = .outOfFuel s := by
  rw [runUntil, if_neg (by simp [h])]

/-- At any other boundary a run goes on from where the step leads, or ends as the step does. -/
theorem runUntil_succ_of_next (fuel : Nat) (h : stop s = false) (hstep : step s = .next t) :
    runUntil stop (fuel + 1) s = runUntil stop fuel t := by
  simp [runUntil, h, hstep]

theorem runUntil_succ_of_fault (fuel : Nat) {f : Fault} (h : stop s = false)
    (hstep : step s = .fault f) : runUntil stop (fuel + 1) s = .fault f := by
  simp [runUntil, h, hstep]

theorem runUntil_succ_of_refused (fuel : Nat) {r : Refusal} (h : stop s = false)
    (hstep : step s = .refused r) : runUntil stop (fuel + 1) s = .refused r := by
  simp [runUntil, h, hstep]

/-! ## Where a run ends (R233) -/

/-- At one of the first `m` boundaries, and at the latest at the first where the condition holds, the
state is one of `P`. -/
def MeetsWithin (stop : StopCondition) (m : Nat) (s : State) (P : State → Prop) : Prop :=
  ∃ n < m, ∃ t, RunsTo stop n s t ∧ P t

theorem not_meetsWithin_zero {P : State → Prop} : ¬ MeetsWithin stop 0 s P := by
  rintro ⟨n, hn, -⟩
  exact Nat.not_lt_zero n hn

/-- The boundaries of a run are its first and, where the condition does not hold there, those after the
step. -/
theorem meetsWithin_succ_iff {m : Nat} {P : State → Prop} : MeetsWithin stop (m + 1) s P ↔
    P s ∨ stop s = false ∧ ∃ u, step s = .next u ∧ MeetsWithin stop m u P := by
  constructor
  · rintro ⟨n, hn, t, hruns, ht⟩
    cases n with
    | zero => rw [runsTo_zero_iff] at hruns; exact .inl (hruns ▸ ht)
    | succ n =>
      obtain ⟨hs, u, hstep, hruns⟩ := runsTo_succ_iff.mp hruns
      exact .inr ⟨hs, u, hstep, n, Nat.lt_of_succ_lt_succ hn, t, hruns, ht⟩
  · rintro (hs | ⟨hs, u, hstep, n, hn, t, hruns, ht⟩)
    · exact ⟨0, Nat.succ_pos m, s, runsTo_zero_iff.mpr rfl, hs⟩
    · exact ⟨n + 1, Nat.succ_lt_succ hn, t, runsTo_succ_iff.mpr ⟨hs, u, hstep, hruns⟩, ht⟩

/-- A run ends as stopped in `t` when `t` is its first boundary where the condition holds. -/
theorem runUntil_eq_stopped_iff {fuel : Nat} : runUntil stop fuel s = .stopped t ↔
    MeetsWithin stop (fuel + 1) s fun u => u = t ∧ stop u = true := by
  induction fuel generalizing s with
  | zero =>
    rw [meetsWithin_succ_iff]
    cases hs : stop s with
    | true => simp [runUntil_of_stop 0 hs]
    | false => simp [runUntil_zero hs, not_meetsWithin_zero]
  | succ fuel ih =>
    rw [meetsWithin_succ_iff]
    cases hs : stop s with
    | true => simp [runUntil_of_stop _ hs]
    | false =>
      cases hstep : step s with
      | next u => simp [runUntil_succ_of_next fuel hs hstep, ih]
      | fault f => simp [runUntil_succ_of_fault fuel hs hstep]
      | refused r => simp [runUntil_succ_of_refused fuel hs hstep]

/-- A run ends in a fault when a step faults at one of its boundaries, and the condition holds neither
there nor before. -/
theorem runUntil_eq_fault_iff {fuel : Nat} {f : Fault} : runUntil stop fuel s = .fault f ↔
    MeetsWithin stop fuel s fun u => stop u = false ∧ step u = .fault f := by
  induction fuel generalizing s with
  | zero =>
    cases hs : stop s with
    | true => simp [runUntil_of_stop 0 hs, not_meetsWithin_zero]
    | false => simp [runUntil_zero hs, not_meetsWithin_zero]
  | succ fuel ih =>
    rw [meetsWithin_succ_iff]
    cases hs : stop s with
    | true => simp [runUntil_of_stop _ hs]
    | false =>
      cases hstep : step s with
      | next u => simp [runUntil_succ_of_next fuel hs hstep, ih]
      | fault f => simp [runUntil_succ_of_fault fuel hs hstep]
      | refused r => simp [runUntil_succ_of_refused fuel hs hstep]

/-- The end of a run in the terms of its steps. -/
theorem runUntil_eq_stopped_iff_runSteps {fuel : Nat} : runUntil stop fuel s = .stopped t ↔
    ∃ n ≤ fuel, runSteps n s = .next t ∧ stop t = true ∧
      ∀ k < n, ∀ u : State, runSteps k s = .next u → stop u = false := by
  rw [runUntil_eq_stopped_iff]
  constructor
  · rintro ⟨n, hn, u, ⟨hruns, hbefore⟩, rfl, hu⟩
    exact ⟨n, Nat.le_of_lt_succ hn, hruns, hu, hbefore⟩
  · rintro ⟨n, hn, hruns, ht, hbefore⟩
    exact ⟨n, Nat.lt_succ_of_le hn, t, ⟨hruns, hbefore⟩, rfl, ht⟩

/-- The fault of a run in the terms of its steps. -/
theorem runUntil_eq_fault_iff_runSteps {fuel : Nat} {f : Fault} : runUntil stop fuel s = .fault f ↔
    ∃ n < fuel, ∃ t : State, runSteps n s = .next t ∧ step t = .fault f ∧
      ∀ k ≤ n, ∀ u : State, runSteps k s = .next u → stop u = false := by
  rw [runUntil_eq_fault_iff]
  constructor
  · rintro ⟨n, hn, t, ⟨hruns, hbefore⟩, ht, hfault⟩
    refine ⟨n, hn, t, hruns, hfault, fun k hk u hu => ?_⟩
    rcases Nat.lt_or_eq_of_le hk with hk | rfl
    · exact hbefore k hk u hu
    · cases hruns.symm.trans hu
      exact ht
  · rintro ⟨n, hn, t, hruns, hfault, hbefore⟩
    exact ⟨n, hn, t, ⟨hruns, fun k hk => hbefore k hk.le⟩, hbefore n le_rfl t hruns, hfault⟩

/-- Settles O57; the second clause is the first at the default condition. -/
theorem runsEndAtTheFirstStop : Obligations.RunsEndAtTheFirstStop := by
  refine ⟨fun stop fuel s t => runUntil_eq_stopped_iff_runSteps, fun a fuel s t => ?atStop,
    fun stop fuel s f => runUntil_eq_fault_iff_runSteps⟩
  case atStop =>
    have h := runUntil_eq_stopped_iff_runSteps (stop := atStop a) (fuel := fuel) (s := s) (t := t)
    simpa [atStop] using h

/-! ## A JMP to itself (R169, R233) -/

/-- The bytes at pc are a JMP to pc, and no line is scheduled and no NMI waits. -/
structure JumpsToItself (s : State) : Prop where
  schedule : s.schedule = []
  nmiPending : s.nmiPending = false
  plain : ∀ k ∈ [0#16, 1#16, 2#16], s.Plain (s.pc + k)
  opcode : s.byteAt s.pc = 0x4C#8
  low : s.byteAt (s.pc + 1#16) = lowByte s.pc
  high : s.byteAt (s.pc + 2#16) = highByte s.pc

namespace JumpsToItself

theorem withIPoll (h : JumpsToItself s) (b : Bool) : JumpsToItself { s with iPoll := b } :=
  ⟨h.schedule, h.nmiPending, h.plain, h.opcode, h.low, h.high⟩

theorem fetch_eq (h : JumpsToItself s) : fetch s = .ok (.jmpAbs s.pc, s.setPc (s.pc + 3#16)) := by
  refine fetch_of_decode_plain (i := .jmpAbs s.pc) (fun k hk => h.plain _ ?plain) ?bytes
  case plain =>
    have hk : k < 3 := hk
    interval_cases k <;> simp
  case bytes =>
    have hbytes : (List.range 3).map (fun k => s.byteAt (s.pc + BitVec.ofNat 16 k)) =
        encode (.jmpAbs s.pc) ++ [] := by
      simp only [List.range_succ, List.range_zero, List.nil_append, List.cons_append, List.map_cons,
        List.map_nil, BitVec.add_zero, h.opcode, h.low, h.high]
      rfl
    exact (congrArg decode hbytes).trans (decode_encode _ [])

/-- The step jumps back and changes nothing but `i_poll`, which it makes equal to P.I. -/
theorem step_eq (h : JumpsToItself s) : step s = .next { s with iPoll := s.p.i } := by
  have hlines : s.lines = quietLines := by rw [State.lines, h.schedule]
  have hresb : s.lines.resb = .high := by rw [hlines]; rfl
  have hpoll : interruptPoll s.lines.irqbLow (sampleLines s) = (none, s) := by
    rw [hlines, sampleLines_quiet s h.schedule]
    exact interruptPoll_quiet s h.nmiPending
  rw [step_of_fetch_ok hresb hpoll h.fetch_eq]
  rfl

/-- A run with another stop address goes round as long as it is allowed to. -/
theorem runUntil_eq {a : Addr} (fuel : Nat) (h : JumpsToItself s) (ha : s.pc ≠ a) :
    runUntil (atStop a) fuel s =
      .outOfFuel { s with iPoll := if fuel = 0 then s.iPoll else s.p.i } := by
  have hstop : ∀ t : State, t.pc = s.pc → atStop a t = false := fun t ht =>
    decide_eq_false (ht ▸ ha)
  induction fuel generalizing s with
  | zero => exact runUntil_zero (hstop s rfl)
  | succ fuel ih =>
    rw [runUntil_succ_of_next fuel (hstop s rfl) h.step_eq, ih (h.withIPoll s.p.i) ha hstop]
    simp

end JumpsToItself

/-- Settles O55. -/
theorem jumpToItselfStopsARun : Obligations.JumpToItselfStopsARun := by
  intro s a fuel hschedule hnmi hplain hopcode hlow hhigh
  have h : JumpsToItself s := ⟨hschedule, hnmi, hplain, hopcode, hlow, hhigh⟩
  refine ⟨h.step_eq, ?_⟩
  split
  case isTrue ha => exact runUntil_of_stop fuel (decide_eq_true ha)
  case isFalse ha => exact h.runUntil_eq fuel ha

end Sys2Proof.Machine
end
